-- ==== Sys2Proof/Word.lean ====
section
/-! DEFINITION. The two word types of the machine (00_scope.md R6, R7). -/

namespace Sys2Proof

/-- A data value: A, X, Y, SP, one byte of storage (R6). -/
abbrev Byte := BitVec 8

/-- An address or the program counter (R6). -/
abbrev Word := BitVec 16

end Sys2Proof
end

