-- ==== Sys2Proof/Machine/Bits.lean ====
section
/-! DEFINITION. Bit fields, concatenation and extension, as 00_scope.md R7 writes them. -/

namespace Sys2Proof

/-- `v[k]` (R7). -/
def bit (v : Byte) (k : Nat) : Bool := v.getLsbD k

/-- `hi(w) = w[15:8]` (R7). -/
def hi (w : Word) : Byte := w.extractLsb' 8 8

/-- `lo(w) = w[7:0]` (R7). -/
def lo (w : Word) : Byte := w.extractLsb' 0 8

/-- `{h, l}`, the word `h * 256 + l` (R7); the order of the bytes in memory is R55's. -/
def join (h l : Byte) : Word := h ++ l

/-- `zext_16(b)` (R7). -/
def zext16 (b : Byte) : Word := b.setWidth 16

/-- `sext_16(b)` (R7), used by the REL8 branch form only. -/
def sext16 (b : Byte) : Word := b.signExtend 16

end Sys2Proof
end

