-- ==== Sys2Proof/Config.lean ====
section
/-! DEFINITION. The parameters of the hardware (00_scope.md R6): the branch operand form (D3) and the
observer registrations (D18). They are fixed before reset and no step changes them.
INITIAL_IMAGE is the argument of State.hostLoad and RESET_DRAW the argument of State.hostReset. -/

namespace Sys2Proof

/-- BRANCH_OPERAND (R6, R127, D3): the form of the operand of the eight branches. -/
inductive BranchOperand where
  /-- a two-byte absolute target, the default -/
  | abs16
  /-- a one-byte signed offset from the next instruction -/
  | rel8
  deriving DecidableEq, Repr

/-- Addresses `first` to `last`, both included (log entry 6). -/
structure AddrInterval where
  first : Word
  last : Word
  deriving DecidableEq, Repr

/-- One `registerObserver(addressRange, observer)` (R53). A range is a set of addresses (D18), written as
a list of intervals; `observer` names the listener. -/
structure Registration where
  observer : Nat
  range : List AddrInterval
  deriving DecidableEq, Repr

/-- The parameters that a running machine consults. -/
structure Params where
  branchOperand : BranchOperand
  /-- OBSERVERS, in registration order -/
  observers : List Registration
  deriving DecidableEq, Repr

/-- The default parameters: ABS16 (D3) and, DESIGN CHOICE (log entry 2), no observer. -/
def Params.default : Params := { branchOperand := .abs16, observers := [] }

end Sys2Proof
end

