-- ==== Sys2Proof/Syntax.lean ====
section
/-! DEFINITION. The syntax of the instruction set: one constructor of Instr per row of the opcode map
(30_encoding.md R84, spec/opcode_table.json), operand bytes as the row's mode gives them (R81, R82), and the
mnemonic and the operand of each. -/

namespace Sys2Proof

/-- The operand of a branch, in the two forms of BRANCH_OPERAND (R127). -/
inductive BranchArg where
  /-- an absolute target (ABS16) -/
  | abs16 (target : Word)
  /-- a signed offset from the next instruction (REL8) -/
  | rel8 (offset : Byte)
  deriving DecidableEq, Repr

/-- An operand that names a byte of storage by an effective address (R118 to R123, R125, R126). -/
inductive MemOperand where
  | zeroPage (nn : Byte)
  | zeroPageX (nn : Byte)
  | zeroPageY (nn : Byte)
  | absolute (w : Word)
  | absoluteX (w : Word)
  | absoluteY (w : Word)
  | indirectX (nn : Byte)
  | indirectY (nn : Byte)
  deriving DecidableEq, Repr

/-- The operand of an instruction that reads a byte: `Imm(v)` or `Addr(EA)` (R112). -/
inductive Source where
  | immediate (v : Byte)
  | memory (m : MemOperand)
  deriving DecidableEq, Repr

/-- The operand of a shift: `Acc` or `Addr(EA)` (R112, R116). -/
inductive Target where
  | accumulator
  | memory (m : MemOperand)
  deriving DecidableEq, Repr

/-- The thirteen addressing modes (R82). -/
inductive Mode where
  | implied
  | accumulator
  | immediate
  | zeroPage
  | zeroPageX
  | zeroPageY
  | absolute
  | absoluteX
  | absoluteY
  | indirect
  | indirectX
  | indirectY
  | relative
  deriving DecidableEq, Repr

/-- Any operand, with its operand bytes. -/
inductive Operand where
  | implied
  | accumulator
  | immediate (v : Byte)
  | memory (m : MemOperand)
  | indirect (ptr : Word)
  | relative (t : BranchArg)
  deriving DecidableEq, Repr

/-- The 56 mnemonics (R86). -/
inductive Mnemonic where
  | lda | ldx | ldy | sta | stx | sty | tax | tay
  | txa | tya | adc | sbc | cmp | cpx | cpy | inc
  | dec | inx | iny | dex | dey | asl | lsr | rol
  | ror | and | ora | eor | bit | bcc | bcs | beq
  | bmi | bne | bpl | bvc | bvs | jmp | jsr | rts
  | brk | rti | pha | php | pla | plp | tsx | txs
  | clc | sec | cli | sei | cld | sed | clv | nop
  deriving DecidableEq, Repr

/-- The instructions: one constructor per row of the opcode map (R84). -/
inductive Instr where
  /-- A9: LDA #nn (R140) -/
  | ldaImm (v : Byte)
  /-- A5: LDA $nn (R140) -/
  | ldaZp (nn : Byte)
  /-- B5: LDA $nn,X (R140) -/
  | ldaZpX (nn : Byte)
  /-- AD: LDA $nnnn (R140) -/
  | ldaAbs (w : Word)
  /-- BD: LDA $nnnn,X (R140) -/
  | ldaAbsX (w : Word)
  /-- B9: LDA $nnnn,Y (R140) -/
  | ldaAbsY (w : Word)
  /-- A1: LDA ($nn,X) (R140) -/
  | ldaIndX (nn : Byte)
  /-- B1: LDA ($nn),Y (R140) -/
  | ldaIndY (nn : Byte)
  /-- A2: LDX #nn (R141) -/
  | ldxImm (v : Byte)
  /-- A6: LDX $nn (R141) -/
  | ldxZp (nn : Byte)
  /-- B6: LDX $nn,Y (R141) -/
  | ldxZpY (nn : Byte)
  /-- AE: LDX $nnnn (R141) -/
  | ldxAbs (w : Word)
  /-- BE: LDX $nnnn,Y (R141) -/
  | ldxAbsY (w : Word)
  /-- A0: LDY #nn (R142) -/
  | ldyImm (v : Byte)
  /-- A4: LDY $nn (R142) -/
  | ldyZp (nn : Byte)
  /-- B4: LDY $nn,X (R142) -/
  | ldyZpX (nn : Byte)
  /-- AC: LDY $nnnn (R142) -/
  | ldyAbs (w : Word)
  /-- BC: LDY $nnnn,X (R142) -/
  | ldyAbsX (w : Word)
  /-- 85: STA $nn (R143) -/
  | staZp (nn : Byte)
  /-- 95: STA $nn,X (R143) -/
  | staZpX (nn : Byte)
  /-- 8D: STA $nnnn (R143) -/
  | staAbs (w : Word)
  /-- 9D: STA $nnnn,X (R143) -/
  | staAbsX (w : Word)
  /-- 99: STA $nnnn,Y (R143) -/
  | staAbsY (w : Word)
  /-- 81: STA ($nn,X) (R143) -/
  | staIndX (nn : Byte)
  /-- 91: STA ($nn),Y (R143) -/
  | staIndY (nn : Byte)
  /-- 86: STX $nn (R144) -/
  | stxZp (nn : Byte)
  /-- 96: STX $nn,Y (R144) -/
  | stxZpY (nn : Byte)
  /-- 8E: STX $nnnn (R144) -/
  | stxAbs (w : Word)
  /-- 84: STY $nn (R145) -/
  | styZp (nn : Byte)
  /-- 94: STY $nn,X (R145) -/
  | styZpX (nn : Byte)
  /-- 8C: STY $nnnn (R145) -/
  | styAbs (w : Word)
  /-- AA: TAX (R146) -/
  | tax
  /-- A8: TAY (R147) -/
  | tay
  /-- 8A: TXA (R148) -/
  | txa
  /-- 98: TYA (R149) -/
  | tya
  /-- 69: ADC #nn (R162) -/
  | adcImm (v : Byte)
  /-- 65: ADC $nn (R162) -/
  | adcZp (nn : Byte)
  /-- 75: ADC $nn,X (R162) -/
  | adcZpX (nn : Byte)
  /-- 6D: ADC $nnnn (R162) -/
  | adcAbs (w : Word)
  /-- 7D: ADC $nnnn,X (R162) -/
  | adcAbsX (w : Word)
  /-- 79: ADC $nnnn,Y (R162) -/
  | adcAbsY (w : Word)
  /-- 61: ADC ($nn,X) (R162) -/
  | adcIndX (nn : Byte)
  /-- 71: ADC ($nn),Y (R162) -/
  | adcIndY (nn : Byte)
  /-- E9: SBC #nn (R163) -/
  | sbcImm (v : Byte)
  /-- E5: SBC $nn (R163) -/
  | sbcZp (nn : Byte)
  /-- F5: SBC $nn,X (R163) -/
  | sbcZpX (nn : Byte)
  /-- ED: SBC $nnnn (R163) -/
  | sbcAbs (w : Word)
  /-- FD: SBC $nnnn,X (R163) -/
  | sbcAbsX (w : Word)
  /-- F9: SBC $nnnn,Y (R163) -/
  | sbcAbsY (w : Word)
  /-- E1: SBC ($nn,X) (R163) -/
  | sbcIndX (nn : Byte)
  /-- F1: SBC ($nn),Y (R163) -/
  | sbcIndY (nn : Byte)
  /-- C9: CMP #nn (R164) -/
  | cmpImm (v : Byte)
  /-- C5: CMP $nn (R164) -/
  | cmpZp (nn : Byte)
  /-- D5: CMP $nn,X (R164) -/
  | cmpZpX (nn : Byte)
  /-- CD: CMP $nnnn (R164) -/
  | cmpAbs (w : Word)
  /-- DD: CMP $nnnn,X (R164) -/
  | cmpAbsX (w : Word)
  /-- D9: CMP $nnnn,Y (R164) -/
  | cmpAbsY (w : Word)
  /-- C1: CMP ($nn,X) (R164) -/
  | cmpIndX (nn : Byte)
  /-- D1: CMP ($nn),Y (R164) -/
  | cmpIndY (nn : Byte)
  /-- E0: CPX #nn (R165) -/
  | cpxImm (v : Byte)
  /-- E4: CPX $nn (R165) -/
  | cpxZp (nn : Byte)
  /-- EC: CPX $nnnn (R165) -/
  | cpxAbs (w : Word)
  /-- C0: CPY #nn (R166) -/
  | cpyImm (v : Byte)
  /-- C4: CPY $nn (R166) -/
  | cpyZp (nn : Byte)
  /-- CC: CPY $nnnn (R166) -/
  | cpyAbs (w : Word)
  /-- E6: INC $nn (R167) -/
  | incZp (nn : Byte)
  /-- F6: INC $nn,X (R167) -/
  | incZpX (nn : Byte)
  /-- EE: INC $nnnn (R167) -/
  | incAbs (w : Word)
  /-- FE: INC $nnnn,X (R167) -/
  | incAbsX (w : Word)
  /-- C6: DEC $nn (R168) -/
  | decZp (nn : Byte)
  /-- D6: DEC $nn,X (R168) -/
  | decZpX (nn : Byte)
  /-- CE: DEC $nnnn (R168) -/
  | decAbs (w : Word)
  /-- DE: DEC $nnnn,X (R168) -/
  | decAbsX (w : Word)
  /-- E8: INX (R169) -/
  | inx
  /-- C8: INY (R170) -/
  | iny
  /-- CA: DEX (R171) -/
  | dex
  /-- 88: DEY (R172) -/
  | dey
  /-- 0A: ASL A (R180) -/
  | aslAcc
  /-- 06: ASL $nn (R180) -/
  | aslZp (nn : Byte)
  /-- 16: ASL $nn,X (R180) -/
  | aslZpX (nn : Byte)
  /-- 0E: ASL $nnnn (R180) -/
  | aslAbs (w : Word)
  /-- 1E: ASL $nnnn,X (R180) -/
  | aslAbsX (w : Word)
  /-- 4A: LSR A (R181) -/
  | lsrAcc
  /-- 46: LSR $nn (R181) -/
  | lsrZp (nn : Byte)
  /-- 56: LSR $nn,X (R181) -/
  | lsrZpX (nn : Byte)
  /-- 4E: LSR $nnnn (R181) -/
  | lsrAbs (w : Word)
  /-- 5E: LSR $nnnn,X (R181) -/
  | lsrAbsX (w : Word)
  /-- 2A: ROL A (R182) -/
  | rolAcc
  /-- 26: ROL $nn (R182) -/
  | rolZp (nn : Byte)
  /-- 36: ROL $nn,X (R182) -/
  | rolZpX (nn : Byte)
  /-- 2E: ROL $nnnn (R182) -/
  | rolAbs (w : Word)
  /-- 3E: ROL $nnnn,X (R182) -/
  | rolAbsX (w : Word)
  /-- 6A: ROR A (R183) -/
  | rorAcc
  /-- 66: ROR $nn (R183) -/
  | rorZp (nn : Byte)
  /-- 76: ROR $nn,X (R183) -/
  | rorZpX (nn : Byte)
  /-- 6E: ROR $nnnn (R183) -/
  | rorAbs (w : Word)
  /-- 7E: ROR $nnnn,X (R183) -/
  | rorAbsX (w : Word)
  /-- 29: AND #nn (R184) -/
  | andImm (v : Byte)
  /-- 25: AND $nn (R184) -/
  | andZp (nn : Byte)
  /-- 35: AND $nn,X (R184) -/
  | andZpX (nn : Byte)
  /-- 2D: AND $nnnn (R184) -/
  | andAbs (w : Word)
  /-- 3D: AND $nnnn,X (R184) -/
  | andAbsX (w : Word)
  /-- 39: AND $nnnn,Y (R184) -/
  | andAbsY (w : Word)
  /-- 21: AND ($nn,X) (R184) -/
  | andIndX (nn : Byte)
  /-- 31: AND ($nn),Y (R184) -/
  | andIndY (nn : Byte)
  /-- 09: ORA #nn (R185) -/
  | oraImm (v : Byte)
  /-- 05: ORA $nn (R185) -/
  | oraZp (nn : Byte)
  /-- 15: ORA $nn,X (R185) -/
  | oraZpX (nn : Byte)
  /-- 0D: ORA $nnnn (R185) -/
  | oraAbs (w : Word)
  /-- 1D: ORA $nnnn,X (R185) -/
  | oraAbsX (w : Word)
  /-- 19: ORA $nnnn,Y (R185) -/
  | oraAbsY (w : Word)
  /-- 01: ORA ($nn,X) (R185) -/
  | oraIndX (nn : Byte)
  /-- 11: ORA ($nn),Y (R185) -/
  | oraIndY (nn : Byte)
  /-- 49: EOR #nn (R186) -/
  | eorImm (v : Byte)
  /-- 45: EOR $nn (R186) -/
  | eorZp (nn : Byte)
  /-- 55: EOR $nn,X (R186) -/
  | eorZpX (nn : Byte)
  /-- 4D: EOR $nnnn (R186) -/
  | eorAbs (w : Word)
  /-- 5D: EOR $nnnn,X (R186) -/
  | eorAbsX (w : Word)
  /-- 59: EOR $nnnn,Y (R186) -/
  | eorAbsY (w : Word)
  /-- 41: EOR ($nn,X) (R186) -/
  | eorIndX (nn : Byte)
  /-- 51: EOR ($nn),Y (R186) -/
  | eorIndY (nn : Byte)
  /-- 24: BIT $nn (R187) -/
  | bitZp (nn : Byte)
  /-- 2C: BIT $nnnn (R187) -/
  | bitAbs (w : Word)
  /-- 90: BCC $nnnn (ABS16) / offset (REL8) (R201) -/
  | bcc (t : BranchArg)
  /-- B0: BCS $nnnn (ABS16) / offset (REL8) (R202) -/
  | bcs (t : BranchArg)
  /-- F0: BEQ $nnnn (ABS16) / offset (REL8) (R203) -/
  | beq (t : BranchArg)
  /-- 30: BMI $nnnn (ABS16) / offset (REL8) (R204) -/
  | bmi (t : BranchArg)
  /-- D0: BNE $nnnn (ABS16) / offset (REL8) (R205) -/
  | bne (t : BranchArg)
  /-- 10: BPL $nnnn (ABS16) / offset (REL8) (R206) -/
  | bpl (t : BranchArg)
  /-- 50: BVC $nnnn (ABS16) / offset (REL8) (R207) -/
  | bvc (t : BranchArg)
  /-- 70: BVS $nnnn (ABS16) / offset (REL8) (R208) -/
  | bvs (t : BranchArg)
  /-- 4C: JMP $nnnn (R209) -/
  | jmpAbs (w : Word)
  /-- 6C: JMP ($nnnn) (R209) -/
  | jmpInd (w : Word)
  /-- 20: JSR $nnnn (R210) -/
  | jsrAbs (w : Word)
  /-- 60: RTS (R211) -/
  | rts
  /-- 00: BRK (R212) -/
  | brk
  /-- 40: RTI (R213) -/
  | rti
  /-- 48: PHA (R220) -/
  | pha
  /-- 08: PHP (R221) -/
  | php
  /-- 68: PLA (R222) -/
  | pla
  /-- 28: PLP (R223) -/
  | plp
  /-- BA: TSX (R224) -/
  | tsx
  /-- 9A: TXS (R225) -/
  | txs
  /-- 18: CLC (R240) -/
  | clc
  /-- 38: SEC (R241) -/
  | sec
  /-- 58: CLI (R242) -/
  | cli
  /-- 78: SEI (R243) -/
  | sei
  /-- D8: CLD (R244) -/
  | cld
  /-- F8: SED (R245) -/
  | sed
  /-- B8: CLV (R246) -/
  | clv
  /-- EA: NOP (R247) -/
  | nop
  deriving DecidableEq, Repr

/-- The addressing mode of an effective-address operand (R82). -/
def MemOperand.mode : MemOperand → Mode
  | .zeroPage _ => .zeroPage
  | .zeroPageX _ => .zeroPageX
  | .zeroPageY _ => .zeroPageY
  | .absolute _ => .absolute
  | .absoluteX _ => .absoluteX
  | .absoluteY _ => .absoluteY
  | .indirectX _ => .indirectX
  | .indirectY _ => .indirectY

/-- The addressing mode of an operand (R82). -/
def Operand.mode : Operand → Mode
  | .implied => .implied
  | .accumulator => .accumulator
  | .immediate _ => .immediate
  | .memory m => m.mode
  | .indirect _ => .indirect
  | .relative _ => .relative

/-- The mnemonic of an instruction (R84). -/
def Instr.mnemonic : Instr → Mnemonic
  | .ldaImm _ => .lda
  | .ldaZp _ => .lda
  | .ldaZpX _ => .lda
  | .ldaAbs _ => .lda
  | .ldaAbsX _ => .lda
  | .ldaAbsY _ => .lda
  | .ldaIndX _ => .lda
  | .ldaIndY _ => .lda
  | .ldxImm _ => .ldx
  | .ldxZp _ => .ldx
  | .ldxZpY _ => .ldx
  | .ldxAbs _ => .ldx
  | .ldxAbsY _ => .ldx
  | .ldyImm _ => .ldy
  | .ldyZp _ => .ldy
  | .ldyZpX _ => .ldy
  | .ldyAbs _ => .ldy
  | .ldyAbsX _ => .ldy
  | .staZp _ => .sta
  | .staZpX _ => .sta
  | .staAbs _ => .sta
  | .staAbsX _ => .sta
  | .staAbsY _ => .sta
  | .staIndX _ => .sta
  | .staIndY _ => .sta
  | .stxZp _ => .stx
  | .stxZpY _ => .stx
  | .stxAbs _ => .stx
  | .styZp _ => .sty
  | .styZpX _ => .sty
  | .styAbs _ => .sty
  | .tax => .tax
  | .tay => .tay
  | .txa => .txa
  | .tya => .tya
  | .adcImm _ => .adc
  | .adcZp _ => .adc
  | .adcZpX _ => .adc
  | .adcAbs _ => .adc
  | .adcAbsX _ => .adc
  | .adcAbsY _ => .adc
  | .adcIndX _ => .adc
  | .adcIndY _ => .adc
  | .sbcImm _ => .sbc
  | .sbcZp _ => .sbc
  | .sbcZpX _ => .sbc
  | .sbcAbs _ => .sbc
  | .sbcAbsX _ => .sbc
  | .sbcAbsY _ => .sbc
  | .sbcIndX _ => .sbc
  | .sbcIndY _ => .sbc
  | .cmpImm _ => .cmp
  | .cmpZp _ => .cmp
  | .cmpZpX _ => .cmp
  | .cmpAbs _ => .cmp
  | .cmpAbsX _ => .cmp
  | .cmpAbsY _ => .cmp
  | .cmpIndX _ => .cmp
  | .cmpIndY _ => .cmp
  | .cpxImm _ => .cpx
  | .cpxZp _ => .cpx
  | .cpxAbs _ => .cpx
  | .cpyImm _ => .cpy
  | .cpyZp _ => .cpy
  | .cpyAbs _ => .cpy
  | .incZp _ => .inc
  | .incZpX _ => .inc
  | .incAbs _ => .inc
  | .incAbsX _ => .inc
  | .decZp _ => .dec
  | .decZpX _ => .dec
  | .decAbs _ => .dec
  | .decAbsX _ => .dec
  | .inx => .inx
  | .iny => .iny
  | .dex => .dex
  | .dey => .dey
  | .aslAcc => .asl
  | .aslZp _ => .asl
  | .aslZpX _ => .asl
  | .aslAbs _ => .asl
  | .aslAbsX _ => .asl
  | .lsrAcc => .lsr
  | .lsrZp _ => .lsr
  | .lsrZpX _ => .lsr
  | .lsrAbs _ => .lsr
  | .lsrAbsX _ => .lsr
  | .rolAcc => .rol
  | .rolZp _ => .rol
  | .rolZpX _ => .rol
  | .rolAbs _ => .rol
  | .rolAbsX _ => .rol
  | .rorAcc => .ror
  | .rorZp _ => .ror
  | .rorZpX _ => .ror
  | .rorAbs _ => .ror
  | .rorAbsX _ => .ror
  | .andImm _ => .and
  | .andZp _ => .and
  | .andZpX _ => .and
  | .andAbs _ => .and
  | .andAbsX _ => .and
  | .andAbsY _ => .and
  | .andIndX _ => .and
  | .andIndY _ => .and
  | .oraImm _ => .ora
  | .oraZp _ => .ora
  | .oraZpX _ => .ora
  | .oraAbs _ => .ora
  | .oraAbsX _ => .ora
  | .oraAbsY _ => .ora
  | .oraIndX _ => .ora
  | .oraIndY _ => .ora
  | .eorImm _ => .eor
  | .eorZp _ => .eor
  | .eorZpX _ => .eor
  | .eorAbs _ => .eor
  | .eorAbsX _ => .eor
  | .eorAbsY _ => .eor
  | .eorIndX _ => .eor
  | .eorIndY _ => .eor
  | .bitZp _ => .bit
  | .bitAbs _ => .bit
  | .bcc _ => .bcc
  | .bcs _ => .bcs
  | .beq _ => .beq
  | .bmi _ => .bmi
  | .bne _ => .bne
  | .bpl _ => .bpl
  | .bvc _ => .bvc
  | .bvs _ => .bvs
  | .jmpAbs _ => .jmp
  | .jmpInd _ => .jmp
  | .jsrAbs _ => .jsr
  | .rts => .rts
  | .brk => .brk
  | .rti => .rti
  | .pha => .pha
  | .php => .php
  | .pla => .pla
  | .plp => .plp
  | .tsx => .tsx
  | .txs => .txs
  | .clc => .clc
  | .sec => .sec
  | .cli => .cli
  | .sei => .sei
  | .cld => .cld
  | .sed => .sed
  | .clv => .clv
  | .nop => .nop

/-- The operand of an instruction (R84). -/
def Instr.operand : Instr → Operand
  | .ldaImm v => .immediate v
  | .ldaZp nn => .memory (.zeroPage nn)
  | .ldaZpX nn => .memory (.zeroPageX nn)
  | .ldaAbs w => .memory (.absolute w)
  | .ldaAbsX w => .memory (.absoluteX w)
  | .ldaAbsY w => .memory (.absoluteY w)
  | .ldaIndX nn => .memory (.indirectX nn)
  | .ldaIndY nn => .memory (.indirectY nn)
  | .ldxImm v => .immediate v
  | .ldxZp nn => .memory (.zeroPage nn)
  | .ldxZpY nn => .memory (.zeroPageY nn)
  | .ldxAbs w => .memory (.absolute w)
  | .ldxAbsY w => .memory (.absoluteY w)
  | .ldyImm v => .immediate v
  | .ldyZp nn => .memory (.zeroPage nn)
  | .ldyZpX nn => .memory (.zeroPageX nn)
  | .ldyAbs w => .memory (.absolute w)
  | .ldyAbsX w => .memory (.absoluteX w)
  | .staZp nn => .memory (.zeroPage nn)
  | .staZpX nn => .memory (.zeroPageX nn)
  | .staAbs w => .memory (.absolute w)
  | .staAbsX w => .memory (.absoluteX w)
  | .staAbsY w => .memory (.absoluteY w)
  | .staIndX nn => .memory (.indirectX nn)
  | .staIndY nn => .memory (.indirectY nn)
  | .stxZp nn => .memory (.zeroPage nn)
  | .stxZpY nn => .memory (.zeroPageY nn)
  | .stxAbs w => .memory (.absolute w)
  | .styZp nn => .memory (.zeroPage nn)
  | .styZpX nn => .memory (.zeroPageX nn)
  | .styAbs w => .memory (.absolute w)
  | .tax => .implied
  | .tay => .implied
  | .txa => .implied
  | .tya => .implied
  | .adcImm v => .immediate v
  | .adcZp nn => .memory (.zeroPage nn)
  | .adcZpX nn => .memory (.zeroPageX nn)
  | .adcAbs w => .memory (.absolute w)
  | .adcAbsX w => .memory (.absoluteX w)
  | .adcAbsY w => .memory (.absoluteY w)
  | .adcIndX nn => .memory (.indirectX nn)
  | .adcIndY nn => .memory (.indirectY nn)
  | .sbcImm v => .immediate v
  | .sbcZp nn => .memory (.zeroPage nn)
  | .sbcZpX nn => .memory (.zeroPageX nn)
  | .sbcAbs w => .memory (.absolute w)
  | .sbcAbsX w => .memory (.absoluteX w)
  | .sbcAbsY w => .memory (.absoluteY w)
  | .sbcIndX nn => .memory (.indirectX nn)
  | .sbcIndY nn => .memory (.indirectY nn)
  | .cmpImm v => .immediate v
  | .cmpZp nn => .memory (.zeroPage nn)
  | .cmpZpX nn => .memory (.zeroPageX nn)
  | .cmpAbs w => .memory (.absolute w)
  | .cmpAbsX w => .memory (.absoluteX w)
  | .cmpAbsY w => .memory (.absoluteY w)
  | .cmpIndX nn => .memory (.indirectX nn)
  | .cmpIndY nn => .memory (.indirectY nn)
  | .cpxImm v => .immediate v
  | .cpxZp nn => .memory (.zeroPage nn)
  | .cpxAbs w => .memory (.absolute w)
  | .cpyImm v => .immediate v
  | .cpyZp nn => .memory (.zeroPage nn)
  | .cpyAbs w => .memory (.absolute w)
  | .incZp nn => .memory (.zeroPage nn)
  | .incZpX nn => .memory (.zeroPageX nn)
  | .incAbs w => .memory (.absolute w)
  | .incAbsX w => .memory (.absoluteX w)
  | .decZp nn => .memory (.zeroPage nn)
  | .decZpX nn => .memory (.zeroPageX nn)
  | .decAbs w => .memory (.absolute w)
  | .decAbsX w => .memory (.absoluteX w)
  | .inx => .implied
  | .iny => .implied
  | .dex => .implied
  | .dey => .implied
  | .aslAcc => .accumulator
  | .aslZp nn => .memory (.zeroPage nn)
  | .aslZpX nn => .memory (.zeroPageX nn)
  | .aslAbs w => .memory (.absolute w)
  | .aslAbsX w => .memory (.absoluteX w)
  | .lsrAcc => .accumulator
  | .lsrZp nn => .memory (.zeroPage nn)
  | .lsrZpX nn => .memory (.zeroPageX nn)
  | .lsrAbs w => .memory (.absolute w)
  | .lsrAbsX w => .memory (.absoluteX w)
  | .rolAcc => .accumulator
  | .rolZp nn => .memory (.zeroPage nn)
  | .rolZpX nn => .memory (.zeroPageX nn)
  | .rolAbs w => .memory (.absolute w)
  | .rolAbsX w => .memory (.absoluteX w)
  | .rorAcc => .accumulator
  | .rorZp nn => .memory (.zeroPage nn)
  | .rorZpX nn => .memory (.zeroPageX nn)
  | .rorAbs w => .memory (.absolute w)
  | .rorAbsX w => .memory (.absoluteX w)
  | .andImm v => .immediate v
  | .andZp nn => .memory (.zeroPage nn)
  | .andZpX nn => .memory (.zeroPageX nn)
  | .andAbs w => .memory (.absolute w)
  | .andAbsX w => .memory (.absoluteX w)
  | .andAbsY w => .memory (.absoluteY w)
  | .andIndX nn => .memory (.indirectX nn)
  | .andIndY nn => .memory (.indirectY nn)
  | .oraImm v => .immediate v
  | .oraZp nn => .memory (.zeroPage nn)
  | .oraZpX nn => .memory (.zeroPageX nn)
  | .oraAbs w => .memory (.absolute w)
  | .oraAbsX w => .memory (.absoluteX w)
  | .oraAbsY w => .memory (.absoluteY w)
  | .oraIndX nn => .memory (.indirectX nn)
  | .oraIndY nn => .memory (.indirectY nn)
  | .eorImm v => .immediate v
  | .eorZp nn => .memory (.zeroPage nn)
  | .eorZpX nn => .memory (.zeroPageX nn)
  | .eorAbs w => .memory (.absolute w)
  | .eorAbsX w => .memory (.absoluteX w)
  | .eorAbsY w => .memory (.absoluteY w)
  | .eorIndX nn => .memory (.indirectX nn)
  | .eorIndY nn => .memory (.indirectY nn)
  | .bitZp nn => .memory (.zeroPage nn)
  | .bitAbs w => .memory (.absolute w)
  | .bcc t => .relative t
  | .bcs t => .relative t
  | .beq t => .relative t
  | .bmi t => .relative t
  | .bne t => .relative t
  | .bpl t => .relative t
  | .bvc t => .relative t
  | .bvs t => .relative t
  | .jmpAbs w => .memory (.absolute w)
  | .jmpInd w => .indirect w
  | .jsrAbs w => .memory (.absolute w)
  | .rts => .implied
  | .brk => .implied
  | .rti => .implied
  | .pha => .implied
  | .php => .implied
  | .pla => .implied
  | .plp => .implied
  | .tsx => .implied
  | .txs => .implied
  | .clc => .implied
  | .sec => .implied
  | .cli => .implied
  | .sei => .implied
  | .cld => .implied
  | .sed => .implied
  | .clv => .implied
  | .nop => .implied

/-- The addressing mode of an instruction (R84). -/
def Instr.mode (i : Instr) : Mode := i.operand.mode

end Sys2Proof
end

