-- ==== Sys2Proof/WellFormed.lean ====
section
/-! DEFINITION. When a term of Instr is an instruction of a machine with a given branch form. The types
already hold every other bound: a mode a mnemonic lacks has no constructor (30_encoding.md R86), an 8-bit
operand is a Byte and a 16-bit operand a Word (R81). -/

namespace Sys2Proof

/-- A branch operand has the form BRANCH_OPERAND selects (R82, R127). -/
def BranchArg.fits : BranchOperand → BranchArg → Bool
  | .abs16, .abs16 _ => true
  | .abs16, .rel8 _ => false
  | .rel8, .abs16 _ => false
  | .rel8, .rel8 _ => true

/-- An operand is one a machine of this branch form can meet. -/
def Operand.fits (form : BranchOperand) : Operand → Bool
  | .implied => true
  | .accumulator => true
  | .immediate _ => true
  | .memory _ => true
  | .indirect _ => true
  | .relative t => t.fits form

/-- Well-formedness of an instruction on a machine of this branch form. -/
def Instr.wf (form : BranchOperand) (i : Instr) : Bool := i.operand.fits form

end Sys2Proof
end

