-- ==== Sys2Proof/Decode.lean ====
section
/-! DEFINITION. The widths of operands and instructions (30_encoding.md R82), the opcode map (R84) as a table from opcode
byte to a tagged entry, the decoder over bytes, total and rejecting by name, and the encoder. -/

namespace Sys2Proof

/-- Operand bytes of an effective-address operand (R82). -/
def MemOperand.width : MemOperand → Nat
  | .zeroPage _ => 1
  | .zeroPageX _ => 1
  | .zeroPageY _ => 1
  | .absolute _ => 2
  | .absoluteX _ => 2
  | .absoluteY _ => 2
  | .indirectX _ => 1
  | .indirectY _ => 1

/-- Operand bytes of a branch operand (R82, R127). -/
def BranchArg.width : BranchArg → Nat
  | .abs16 _ => 2
  | .rel8 _ => 1

/-- Operand bytes of an operand (R82). -/
def Operand.width : Operand → Nat
  | .implied => 0
  | .accumulator => 0
  | .immediate _ => 1
  | .memory m => m.width
  | .indirect _ => 2
  | .relative t => t.width

/-- The length of an instruction in bytes: the opcode and its operand bytes (R80, R114). -/
def Instr.size (i : Instr) : Nat := 1 + i.operand.width

/-- The operand bytes an entry of the table takes, and the instruction they make (R81, R83). -/
inductive Shape where
  /-- no operand byte -/
  | none (i : Instr)
  /-- one operand byte -/
  | byte (make : Byte → Instr)
  /-- two operand bytes, little-endian -/
  | word (make : Word → Instr)
  /-- a branch operand, in the form of BRANCH_OPERAND (R127) -/
  | branch (make : BranchArg → Instr)

/-- One row of the opcode map: "key = one byte" (R84). -/
structure Row where
  opcode : Byte
  shape : Shape

/-- Opcodes 0x00 to 0x0F (R84). -/
def opcodeRows0 : List Row :=
  [⟨0x00#8, .none .brk⟩,
   ⟨0x01#8, .byte .oraIndX⟩,
   ⟨0x05#8, .byte .oraZp⟩,
   ⟨0x06#8, .byte .aslZp⟩,
   ⟨0x08#8, .none .php⟩,
   ⟨0x09#8, .byte .oraImm⟩,
   ⟨0x0A#8, .none .aslAcc⟩,
   ⟨0x0D#8, .word .oraAbs⟩,
   ⟨0x0E#8, .word .aslAbs⟩]

/-- Opcodes 0x10 to 0x1F (R84). -/
def opcodeRows1 : List Row :=
  [⟨0x10#8, .branch .bpl⟩,
   ⟨0x11#8, .byte .oraIndY⟩,
   ⟨0x15#8, .byte .oraZpX⟩,
   ⟨0x16#8, .byte .aslZpX⟩,
   ⟨0x18#8, .none .clc⟩,
   ⟨0x19#8, .word .oraAbsY⟩,
   ⟨0x1D#8, .word .oraAbsX⟩,
   ⟨0x1E#8, .word .aslAbsX⟩]

/-- Opcodes 0x20 to 0x2F (R84). -/
def opcodeRows2 : List Row :=
  [⟨0x20#8, .word .jsrAbs⟩,
   ⟨0x21#8, .byte .andIndX⟩,
   ⟨0x24#8, .byte .bitZp⟩,
   ⟨0x25#8, .byte .andZp⟩,
   ⟨0x26#8, .byte .rolZp⟩,
   ⟨0x28#8, .none .plp⟩,
   ⟨0x29#8, .byte .andImm⟩,
   ⟨0x2A#8, .none .rolAcc⟩,
   ⟨0x2C#8, .word .bitAbs⟩,
   ⟨0x2D#8, .word .andAbs⟩,
   ⟨0x2E#8, .word .rolAbs⟩]

/-- Opcodes 0x30 to 0x3F (R84). -/
def opcodeRows3 : List Row :=
  [⟨0x30#8, .branch .bmi⟩,
   ⟨0x31#8, .byte .andIndY⟩,
   ⟨0x35#8, .byte .andZpX⟩,
   ⟨0x36#8, .byte .rolZpX⟩,
   ⟨0x38#8, .none .sec⟩,
   ⟨0x39#8, .word .andAbsY⟩,
   ⟨0x3D#8, .word .andAbsX⟩,
   ⟨0x3E#8, .word .rolAbsX⟩]

/-- Opcodes 0x40 to 0x4F (R84). -/
def opcodeRows4 : List Row :=
  [⟨0x40#8, .none .rti⟩,
   ⟨0x41#8, .byte .eorIndX⟩,
   ⟨0x45#8, .byte .eorZp⟩,
   ⟨0x46#8, .byte .lsrZp⟩,
   ⟨0x48#8, .none .pha⟩,
   ⟨0x49#8, .byte .eorImm⟩,
   ⟨0x4A#8, .none .lsrAcc⟩,
   ⟨0x4C#8, .word .jmpAbs⟩,
   ⟨0x4D#8, .word .eorAbs⟩,
   ⟨0x4E#8, .word .lsrAbs⟩]

/-- Opcodes 0x50 to 0x5F (R84). -/
def opcodeRows5 : List Row :=
  [⟨0x50#8, .branch .bvc⟩,
   ⟨0x51#8, .byte .eorIndY⟩,
   ⟨0x55#8, .byte .eorZpX⟩,
   ⟨0x56#8, .byte .lsrZpX⟩,
   ⟨0x58#8, .none .cli⟩,
   ⟨0x59#8, .word .eorAbsY⟩,
   ⟨0x5D#8, .word .eorAbsX⟩,
   ⟨0x5E#8, .word .lsrAbsX⟩]

/-- Opcodes 0x60 to 0x6F (R84). -/
def opcodeRows6 : List Row :=
  [⟨0x60#8, .none .rts⟩,
   ⟨0x61#8, .byte .adcIndX⟩,
   ⟨0x65#8, .byte .adcZp⟩,
   ⟨0x66#8, .byte .rorZp⟩,
   ⟨0x68#8, .none .pla⟩,
   ⟨0x69#8, .byte .adcImm⟩,
   ⟨0x6A#8, .none .rorAcc⟩,
   ⟨0x6C#8, .word .jmpInd⟩,
   ⟨0x6D#8, .word .adcAbs⟩,
   ⟨0x6E#8, .word .rorAbs⟩]

/-- Opcodes 0x70 to 0x7F (R84). -/
def opcodeRows7 : List Row :=
  [⟨0x70#8, .branch .bvs⟩,
   ⟨0x71#8, .byte .adcIndY⟩,
   ⟨0x75#8, .byte .adcZpX⟩,
   ⟨0x76#8, .byte .rorZpX⟩,
   ⟨0x78#8, .none .sei⟩,
   ⟨0x79#8, .word .adcAbsY⟩,
   ⟨0x7D#8, .word .adcAbsX⟩,
   ⟨0x7E#8, .word .rorAbsX⟩]

/-- Opcodes 0x80 to 0x8F (R84). -/
def opcodeRows8 : List Row :=
  [⟨0x81#8, .byte .staIndX⟩,
   ⟨0x84#8, .byte .styZp⟩,
   ⟨0x85#8, .byte .staZp⟩,
   ⟨0x86#8, .byte .stxZp⟩,
   ⟨0x88#8, .none .dey⟩,
   ⟨0x8A#8, .none .txa⟩,
   ⟨0x8C#8, .word .styAbs⟩,
   ⟨0x8D#8, .word .staAbs⟩,
   ⟨0x8E#8, .word .stxAbs⟩]

/-- Opcodes 0x90 to 0x9F (R84). -/
def opcodeRows9 : List Row :=
  [⟨0x90#8, .branch .bcc⟩,
   ⟨0x91#8, .byte .staIndY⟩,
   ⟨0x94#8, .byte .styZpX⟩,
   ⟨0x95#8, .byte .staZpX⟩,
   ⟨0x96#8, .byte .stxZpY⟩,
   ⟨0x98#8, .none .tya⟩,
   ⟨0x99#8, .word .staAbsY⟩,
   ⟨0x9A#8, .none .txs⟩,
   ⟨0x9D#8, .word .staAbsX⟩]

/-- Opcodes 0xA0 to 0xAF (R84). -/
def opcodeRowsA : List Row :=
  [⟨0xA0#8, .byte .ldyImm⟩,
   ⟨0xA1#8, .byte .ldaIndX⟩,
   ⟨0xA2#8, .byte .ldxImm⟩,
   ⟨0xA4#8, .byte .ldyZp⟩,
   ⟨0xA5#8, .byte .ldaZp⟩,
   ⟨0xA6#8, .byte .ldxZp⟩,
   ⟨0xA8#8, .none .tay⟩,
   ⟨0xA9#8, .byte .ldaImm⟩,
   ⟨0xAA#8, .none .tax⟩,
   ⟨0xAC#8, .word .ldyAbs⟩,
   ⟨0xAD#8, .word .ldaAbs⟩,
   ⟨0xAE#8, .word .ldxAbs⟩]

/-- Opcodes 0xB0 to 0xBF (R84). -/
def opcodeRowsB : List Row :=
  [⟨0xB0#8, .branch .bcs⟩,
   ⟨0xB1#8, .byte .ldaIndY⟩,
   ⟨0xB4#8, .byte .ldyZpX⟩,
   ⟨0xB5#8, .byte .ldaZpX⟩,
   ⟨0xB6#8, .byte .ldxZpY⟩,
   ⟨0xB8#8, .none .clv⟩,
   ⟨0xB9#8, .word .ldaAbsY⟩,
   ⟨0xBA#8, .none .tsx⟩,
   ⟨0xBC#8, .word .ldyAbsX⟩,
   ⟨0xBD#8, .word .ldaAbsX⟩,
   ⟨0xBE#8, .word .ldxAbsY⟩]

/-- Opcodes 0xC0 to 0xCF (R84). -/
def opcodeRowsC : List Row :=
  [⟨0xC0#8, .byte .cpyImm⟩,
   ⟨0xC1#8, .byte .cmpIndX⟩,
   ⟨0xC4#8, .byte .cpyZp⟩,
   ⟨0xC5#8, .byte .cmpZp⟩,
   ⟨0xC6#8, .byte .decZp⟩,
   ⟨0xC8#8, .none .iny⟩,
   ⟨0xC9#8, .byte .cmpImm⟩,
   ⟨0xCA#8, .none .dex⟩,
   ⟨0xCC#8, .word .cpyAbs⟩,
   ⟨0xCD#8, .word .cmpAbs⟩,
   ⟨0xCE#8, .word .decAbs⟩]

/-- Opcodes 0xD0 to 0xDF (R84). -/
def opcodeRowsD : List Row :=
  [⟨0xD0#8, .branch .bne⟩,
   ⟨0xD1#8, .byte .cmpIndY⟩,
   ⟨0xD5#8, .byte .cmpZpX⟩,
   ⟨0xD6#8, .byte .decZpX⟩,
   ⟨0xD8#8, .none .cld⟩,
   ⟨0xD9#8, .word .cmpAbsY⟩,
   ⟨0xDD#8, .word .cmpAbsX⟩,
   ⟨0xDE#8, .word .decAbsX⟩]

/-- Opcodes 0xE0 to 0xEF (R84). -/
def opcodeRowsE : List Row :=
  [⟨0xE0#8, .byte .cpxImm⟩,
   ⟨0xE1#8, .byte .sbcIndX⟩,
   ⟨0xE4#8, .byte .cpxZp⟩,
   ⟨0xE5#8, .byte .sbcZp⟩,
   ⟨0xE6#8, .byte .incZp⟩,
   ⟨0xE8#8, .none .inx⟩,
   ⟨0xE9#8, .byte .sbcImm⟩,
   ⟨0xEA#8, .none .nop⟩,
   ⟨0xEC#8, .word .cpxAbs⟩,
   ⟨0xED#8, .word .sbcAbs⟩,
   ⟨0xEE#8, .word .incAbs⟩]

/-- Opcodes 0xF0 to 0xFF (R84). -/
def opcodeRowsF : List Row :=
  [⟨0xF0#8, .branch .beq⟩,
   ⟨0xF1#8, .byte .sbcIndY⟩,
   ⟨0xF5#8, .byte .sbcZpX⟩,
   ⟨0xF6#8, .byte .incZpX⟩,
   ⟨0xF8#8, .none .sed⟩,
   ⟨0xF9#8, .word .sbcAbsY⟩,
   ⟨0xFD#8, .word .sbcAbsX⟩,
   ⟨0xFE#8, .word .incAbsX⟩]

/-- The opcode map, 151 rows (R84). -/
def opcodeTable : List Row :=
  opcodeRows0 ++ opcodeRows1 ++ opcodeRows2 ++ opcodeRows3 ++ opcodeRows4 ++ opcodeRows5 ++ opcodeRows6 ++ opcodeRows7 ++
  opcodeRows8 ++ opcodeRows9 ++ opcodeRowsA ++ opcodeRowsB ++ opcodeRowsC ++ opcodeRowsD ++ opcodeRowsE ++ opcodeRowsF

/-- The lookup that is the dispatcher (R3, R111). -/
def findRow (opc : Byte) : List Row → Option Shape
  | [] => .none
  | r :: rs => if r.opcode = opc then some r.shape else findRow opc rs

/-- The entry of an opcode byte, absent for an unassigned byte (R87). -/
def opcodeEntry (opc : Byte) : Option Shape := findRow opc opcodeTable

/-- Why bytes are no instruction. -/
inductive Reject where
  /-- there is no opcode byte -/
  | empty
  /-- the opcode byte is unassigned (R87) -/
  | unassigned (opcode : Byte)
  /-- the operand bytes are missing -/
  | truncated (opcode : Byte)
  deriving DecidableEq, Repr

/-- Read the operand bytes an entry takes; the rest of the bytes is left over (R81, R83, R127). -/
def Shape.read (form : BranchOperand) (opc : Byte) (shape : Shape) (bytes : List Byte) : Except Reject (Instr × List Byte) :=
  match shape with
  | .none i => .ok (i, bytes)
  | .byte make =>
    match bytes with
    | v :: rest => .ok (make v, rest)
    | [] => .error (.truncated opc)
  | .word make =>
    match bytes with
    | l :: h :: rest => .ok (make (join h l), rest)
    | _ => .error (.truncated opc)
  | .branch make =>
    match form, bytes with
    | .abs16, l :: h :: rest => .ok (make (.abs16 (join h l)), rest)
    | .rel8, o :: rest => .ok (make (.rel8 o), rest)
    | _, _ => .error (.truncated opc)

/-- The decoder: the first instruction of the bytes, and the bytes after it. -/
def decode (form : BranchOperand) (bytes : List Byte) : Except Reject (Instr × List Byte) :=
  match bytes with
  | [] => .error .empty
  | opc :: rest =>
    match opcodeEntry opc with
    | some shape => shape.read form opc rest
    | none => .error (.unassigned opc)

/-- The opcode byte of an instruction (R84). -/
def Instr.opcode : Instr → Byte
  | .ldaImm _ => 0xA9#8
  | .ldaZp _ => 0xA5#8
  | .ldaZpX _ => 0xB5#8
  | .ldaAbs _ => 0xAD#8
  | .ldaAbsX _ => 0xBD#8
  | .ldaAbsY _ => 0xB9#8
  | .ldaIndX _ => 0xA1#8
  | .ldaIndY _ => 0xB1#8
  | .ldxImm _ => 0xA2#8
  | .ldxZp _ => 0xA6#8
  | .ldxZpY _ => 0xB6#8
  | .ldxAbs _ => 0xAE#8
  | .ldxAbsY _ => 0xBE#8
  | .ldyImm _ => 0xA0#8
  | .ldyZp _ => 0xA4#8
  | .ldyZpX _ => 0xB4#8
  | .ldyAbs _ => 0xAC#8
  | .ldyAbsX _ => 0xBC#8
  | .staZp _ => 0x85#8
  | .staZpX _ => 0x95#8
  | .staAbs _ => 0x8D#8
  | .staAbsX _ => 0x9D#8
  | .staAbsY _ => 0x99#8
  | .staIndX _ => 0x81#8
  | .staIndY _ => 0x91#8
  | .stxZp _ => 0x86#8
  | .stxZpY _ => 0x96#8
  | .stxAbs _ => 0x8E#8
  | .styZp _ => 0x84#8
  | .styZpX _ => 0x94#8
  | .styAbs _ => 0x8C#8
  | .tax => 0xAA#8
  | .tay => 0xA8#8
  | .txa => 0x8A#8
  | .tya => 0x98#8
  | .adcImm _ => 0x69#8
  | .adcZp _ => 0x65#8
  | .adcZpX _ => 0x75#8
  | .adcAbs _ => 0x6D#8
  | .adcAbsX _ => 0x7D#8
  | .adcAbsY _ => 0x79#8
  | .adcIndX _ => 0x61#8
  | .adcIndY _ => 0x71#8
  | .sbcImm _ => 0xE9#8
  | .sbcZp _ => 0xE5#8
  | .sbcZpX _ => 0xF5#8
  | .sbcAbs _ => 0xED#8
  | .sbcAbsX _ => 0xFD#8
  | .sbcAbsY _ => 0xF9#8
  | .sbcIndX _ => 0xE1#8
  | .sbcIndY _ => 0xF1#8
  | .cmpImm _ => 0xC9#8
  | .cmpZp _ => 0xC5#8
  | .cmpZpX _ => 0xD5#8
  | .cmpAbs _ => 0xCD#8
  | .cmpAbsX _ => 0xDD#8
  | .cmpAbsY _ => 0xD9#8
  | .cmpIndX _ => 0xC1#8
  | .cmpIndY _ => 0xD1#8
  | .cpxImm _ => 0xE0#8
  | .cpxZp _ => 0xE4#8
  | .cpxAbs _ => 0xEC#8
  | .cpyImm _ => 0xC0#8
  | .cpyZp _ => 0xC4#8
  | .cpyAbs _ => 0xCC#8
  | .incZp _ => 0xE6#8
  | .incZpX _ => 0xF6#8
  | .incAbs _ => 0xEE#8
  | .incAbsX _ => 0xFE#8
  | .decZp _ => 0xC6#8
  | .decZpX _ => 0xD6#8
  | .decAbs _ => 0xCE#8
  | .decAbsX _ => 0xDE#8
  | .inx => 0xE8#8
  | .iny => 0xC8#8
  | .dex => 0xCA#8
  | .dey => 0x88#8
  | .aslAcc => 0x0A#8
  | .aslZp _ => 0x06#8
  | .aslZpX _ => 0x16#8
  | .aslAbs _ => 0x0E#8
  | .aslAbsX _ => 0x1E#8
  | .lsrAcc => 0x4A#8
  | .lsrZp _ => 0x46#8
  | .lsrZpX _ => 0x56#8
  | .lsrAbs _ => 0x4E#8
  | .lsrAbsX _ => 0x5E#8
  | .rolAcc => 0x2A#8
  | .rolZp _ => 0x26#8
  | .rolZpX _ => 0x36#8
  | .rolAbs _ => 0x2E#8
  | .rolAbsX _ => 0x3E#8
  | .rorAcc => 0x6A#8
  | .rorZp _ => 0x66#8
  | .rorZpX _ => 0x76#8
  | .rorAbs _ => 0x6E#8
  | .rorAbsX _ => 0x7E#8
  | .andImm _ => 0x29#8
  | .andZp _ => 0x25#8
  | .andZpX _ => 0x35#8
  | .andAbs _ => 0x2D#8
  | .andAbsX _ => 0x3D#8
  | .andAbsY _ => 0x39#8
  | .andIndX _ => 0x21#8
  | .andIndY _ => 0x31#8
  | .oraImm _ => 0x09#8
  | .oraZp _ => 0x05#8
  | .oraZpX _ => 0x15#8
  | .oraAbs _ => 0x0D#8
  | .oraAbsX _ => 0x1D#8
  | .oraAbsY _ => 0x19#8
  | .oraIndX _ => 0x01#8
  | .oraIndY _ => 0x11#8
  | .eorImm _ => 0x49#8
  | .eorZp _ => 0x45#8
  | .eorZpX _ => 0x55#8
  | .eorAbs _ => 0x4D#8
  | .eorAbsX _ => 0x5D#8
  | .eorAbsY _ => 0x59#8
  | .eorIndX _ => 0x41#8
  | .eorIndY _ => 0x51#8
  | .bitZp _ => 0x24#8
  | .bitAbs _ => 0x2C#8
  | .bcc _ => 0x90#8
  | .bcs _ => 0xB0#8
  | .beq _ => 0xF0#8
  | .bmi _ => 0x30#8
  | .bne _ => 0xD0#8
  | .bpl _ => 0x10#8
  | .bvc _ => 0x50#8
  | .bvs _ => 0x70#8
  | .jmpAbs _ => 0x4C#8
  | .jmpInd _ => 0x6C#8
  | .jsrAbs _ => 0x20#8
  | .rts => 0x60#8
  | .brk => 0x00#8
  | .rti => 0x40#8
  | .pha => 0x48#8
  | .php => 0x08#8
  | .pla => 0x68#8
  | .plp => 0x28#8
  | .tsx => 0xBA#8
  | .txs => 0x9A#8
  | .clc => 0x18#8
  | .sec => 0x38#8
  | .cli => 0x58#8
  | .sei => 0x78#8
  | .cld => 0xD8#8
  | .sed => 0xF8#8
  | .clv => 0xB8#8
  | .nop => 0xEA#8

/-- A 16-bit operand as bytes, low byte first (R83). -/
def wordBytes (w : Word) : List Byte := [lo w, hi w]

/-- The operand bytes of an effective-address operand (R81). -/
def MemOperand.bytes : MemOperand → List Byte
  | .zeroPage nn => [nn]
  | .zeroPageX nn => [nn]
  | .zeroPageY nn => [nn]
  | .absolute w => wordBytes w
  | .absoluteX w => wordBytes w
  | .absoluteY w => wordBytes w
  | .indirectX nn => [nn]
  | .indirectY nn => [nn]

/-- The operand bytes of a branch operand (R82, R127). -/
def BranchArg.bytes : BranchArg → List Byte
  | .abs16 w => wordBytes w
  | .rel8 o => [o]

/-- The operand bytes of an operand (R81). -/
def Operand.bytes : Operand → List Byte
  | .implied => []
  | .accumulator => []
  | .immediate v => [v]
  | .memory m => m.bytes
  | .indirect ptr => wordBytes ptr
  | .relative t => t.bytes

/-- The bytes of an instruction, the opcode first (R81). -/
def encode (i : Instr) : List Byte := i.opcode :: i.operand.bytes

/-- The three bytes of a table word: bit 0 is the least significant bit of the first byte, and every bit
from `nbits` up is 0. -/
def tableBytes (nbits w : Nat) : List Byte :=
  [BitVec.ofNat 8 (w % 2 ^ nbits), BitVec.ofNat 8 (w % 2 ^ nbits / 256), BitVec.ofNat 8 (w % 2 ^ nbits / 65536)]

/-- The instruction the decoder reads from a table word, under the default branch form ABS16 (log entry 8). -/
def decodeTableWord (nbits w : Nat) : Option Instr :=
  match decode .abs16 (tableBytes nbits w) with
  | .ok (i, _) => some i
  | .error _ => none

end Sys2Proof
end

