-- ==== Sys2Proof/Machine/Layout.lean ====
section
/-! DEFINITION. The address map the CORE fixes: stack page, vectors and the regions of
20_memory.md R60 (10_state.md R24, R40). Every region is ordinary storage. -/

namespace Sys2Proof.Machine

/-- The stack address of SP: `0x0100 | SP` (R24). -/
def stackAddr (sp : Byte) : Word := 0x0100#16 ||| zext16 sp

/-- The NMI vector, read by nothing (R40, R264). -/
def nmiVector : Word := 0xFFFA#16

/-- The RESET vector, read by reset (R40, R300). -/
def resetVector : Word := 0xFFFC#16

/-- The BRK vector, read by BRK (R40, R212). -/
def brkVector : Word := 0xFFFE#16

/-- The regions of the address map (R60). -/
inductive Region where
  | zeroPage
  | stackPage
  | free
  | nmi
  | reset
  | brk
  deriving DecidableEq, Repr

/-- The region an address lies in (R60). No region limits an access (R62). -/
def region (a : Word) : Region :=
  if a.toNat ≤ 0x00FF then .zeroPage
  else if a.toNat ≤ 0x01FF then .stackPage
  else if a.toNat ≤ 0xFFF9 then .free
  else if a.toNat ≤ 0xFFFB then .nmi
  else if a.toNat ≤ 0xFFFD then .reset
  else .brk

end Sys2Proof.Machine
end

