-- ==== Sys2Proof/Machine/Memory.lean ====
section
/-! DEFINITION. The storage of 65,536 bytes (10_state.md R39, 20_memory.md R50 to R52) as a list of
cells in one canonical form: addresses strictly rising and below 65,536, no listed byte equal to what an
unlisted address reads as. -/

namespace Sys2Proof.Machine

/-- The cells that differ from the zero-initialised storage. -/
abbrev Memory := List Host.Cell

/-- What an address nothing has written reads as: storage is "zero-initialized bytes unless loaded" (R39). -/
def Memory.unlisted : Byte := 0x00#8

/-- The byte at an address: `readByte` never faults (R51). -/
def Memory.read : Memory → Nat → Byte
  | [], _ => Memory.unlisted
  | (k, v) :: m, a => if k = a then v else Memory.read m a

/-- Put a byte at an address: `writeByte` never faults (R52). -/
def Memory.write : Memory → Nat → Byte → Memory
  | [], a, v => if v = Memory.unlisted then [] else [(a, v)]
  | (k, w) :: m, a, v =>
    if a < k then (if v = Memory.unlisted then (k, w) :: m else (a, v) :: (k, w) :: m)
    else if a = k then (if v = Memory.unlisted then m else (a, v) :: m)
    else (k, w) :: Memory.write m a v

/-- The canonical form from address `low` up. -/
def Memory.wfFrom : Nat → Memory → Bool
  | _, [] => true
  | low, (k, v) :: m => decide (low ≤ k) && decide (k < 65536) && (v != Memory.unlisted) && Memory.wfFrom (k + 1) m

/-- The canonical form. -/
def Memory.wf (m : Memory) : Bool := Memory.wfFrom 0 m

/-- An image laid out from address `a` up; bytes past 0xFFFF are dropped (log entry 9). -/
def Memory.ofImageFrom : Nat → List Byte → Memory
  | _, [] => []
  | a, b :: bs =>
    if a < 65536 then
      (if b = Memory.unlisted then Memory.ofImageFrom (a + 1) bs else (a, b) :: Memory.ofImageFrom (a + 1) bs)
    else []

/-- INITIAL_IMAGE as storage: "every byte not loaded being 0x00" (R39). -/
def Memory.ofImage (image : List Byte) : Memory := Memory.ofImageFrom 0 image

end Sys2Proof.Machine
end

