-- ==== Sys2Proof/Machine/State.lean ====
section
/-! DEFINITION. The state of the CORE (10_state.md): register bank, seven flags, storage, run state and
observer trace, beside the parameters it runs under; the reasons a step can stop; the state after reset. -/

namespace Sys2Proof.Machine

/-- The processor status P: seven independent one-bit flags (R28). -/
structure Status where
  /-- carry (R32) -/
  c : Bool
  /-- zero (R33) -/
  z : Bool
  /-- interrupt disable (R34) -/
  i : Bool
  /-- decimal (R35) -/
  d : Bool
  /-- break (R36) -/
  b : Bool
  /-- overflow (R37) -/
  v : Bool
  /-- negative (R38) -/
  n : Bool
  deriving DecidableEq, Repr

/-- The fault kinds the CORE raises (60_exceptions.md R260). -/
inductive FaultKind where
  /-- an unassigned opcode byte was fetched (R87) -/
  | decodeError
  /-- decimal arithmetic (R161) or the indirect-JMP page wrap (R124) -/
  | unsupportedFeature
  deriving DecidableEq, Repr

/-- The run state (R41). -/
inductive RunState where
  | running
  /-- the fault record: kind, address of the opcode byte, that byte (R41, R261) -/
  | faulted (kind : FaultKind) (addr : Word) (opcode : Byte)
  deriving DecidableEq, Repr

/-- What an observer is told of one storage access (R53). -/
inductive Access where
  | onRead (addr : Word)
  | onWrite (addr : Word) (value : Byte)
  deriving DecidableEq, Repr

/-- One delivered notification: which observer received it, and what it was told (R42, R53; log entry 5). -/
structure Event where
  observer : Nat
  access : Access
  deriving DecidableEq, Repr

/-- The machine's state (R20, R28, R39, R41, R42). `params` is no state of the spec (R43): it holds the
parameters of R6, which no step changes (log entry 2). -/
structure State where
  /-- accumulator (R21) -/
  a : Byte
  /-- index register X (R22) -/
  x : Byte
  /-- index register Y (R23) -/
  y : Byte
  /-- stack pointer (R24) -/
  sp : Byte
  /-- program counter (R27) -/
  pc : Word
  /-- processor status (R28) -/
  p : Status
  /-- storage (R39) -/
  mem : Memory
  /-- run state (R41) -/
  run : RunState
  /-- observer event trace, oldest first (R42) -/
  trace : List Event
  /-- BRANCH_OPERAND and OBSERVERS (R6) -/
  params : Params
  deriving DecidableEq, Repr

/-- Why the machine has no step. -/
inductive Fault where
  /-- Raised by `step` alone, in a state whose run state is Faulted: "A Faulted engine has no step; only
  reset leaves it" (R261, U11). It carries the fault record. Safe: the machine stops too. -/
  | engineFaulted (kind : FaultKind) (addr : Word) (opcode : Byte)
  deriving DecidableEq, Repr

/-- Why the model gives no meaning. -/
inductive Refusal where
  /-- An instruction without a meaning, raised by its arm of `exec`. No arm raises it. Safe: the model stops. -/
  | notModelled (mnemonic : String)
  deriving DecidableEq, Repr

/-- RESET_DRAW: the values reset leaves open (R44, D8). -/
structure ResetDraw where
  a : Byte
  x : Byte
  y : Byte
  sp : Byte
  p : Status
  deriving DecidableEq, Repr

/-- All seven flags clear. -/
def Status.clear : Status :=
  { c := false, z := false, i := false, d := false, b := false, v := false, n := false }

/-- DESIGN CHOICE (log entry 1): the draw that State.reset takes. -/
def ResetDraw.zero : ResetDraw := { a := 0x00#8, x := 0x00#8, y := 0x00#8, sp := 0x00#8, p := Status.clear }

/-- The state right after reset (R44, R300): PC from the RESET vector of the storage, which lists nothing,
run state Running, trace empty; A, X, Y, SP and the flags are free in the spec and zero here (log entry 1). -/
def State.reset : State :=
  { a := ResetDraw.zero.a, x := ResetDraw.zero.x, y := ResetDraw.zero.y, sp := ResetDraw.zero.sp
    pc := join (Memory.read [] (resetVector + 1).toNat) (Memory.read [] resetVector.toNat)
    p := ResetDraw.zero.p, mem := [], run := .running, trace := [], params := Params.default }

end Sys2Proof.Machine
end

