-- ==== Sys2Proof/Machine/Flags.lean ====
section
/-! DEFINITION. Every computation on the seven flags: the shared Z/N rule, packing, binary addition, compare,
shifts and BIT (10_state.md R29 to R31, 42_arithmetic.md, 43_shift_logic.md). -/

namespace Sys2Proof.Machine

/-- `SetZN(v)` (R31). -/
def Status.setZN (p : Status) (v : Byte) : Status := { p with z := v == 0#8, n := bit v 7 }

/-- `pack(P)` (R29): bit 6 C, 5 Z, 4 I, 3 D, 2 B, 1 V, 0 N, and bit 7 is 0 (D7). -/
def Status.pack (p : Status) : Byte :=
  BitVec.ofNat 8 (p.c.toNat * 64 + p.z.toNat * 32 + p.i.toNat * 16 + p.d.toNat * 8 + p.b.toNat * 4 + p.v.toNat * 2 + p.n.toNat)

/-- `unpack(b)` (R30): bit 7 is ignored (D7). -/
def Status.unpack (b : Byte) : Status :=
  { n := bit b 0, v := bit b 1, b := bit b 2, d := bit b 3, i := bit b 4, z := bit b 5, c := bit b 6 }

/-- The unbounded sum of ADC, 0 to 511 (R160, R162). -/
def adcSum (a m : Byte) (c : Bool) : Nat := a.toNat + m.toNat + c.toNat

/-- The low eight bits of the sum (R162). -/
def adcResult (a m : Byte) (c : Bool) : Byte := BitVec.ofNat 8 (adcSum a m c)

/-- The flags of ADC: C is bit 8 of the sum, V is set when both addends have the same bit 7 and the
result's differs, Z and N from the result (R162). -/
def Status.afterAdc (p : Status) (a m : Byte) : Status :=
  { p.setZN (adcResult a m p.c) with
    c := decide (0xFF < adcSum a m p.c)
    v := (bit a 7 == bit m 7) && (bit a 7 != bit (adcResult a m p.c) 7) }

/-- The flags of CMP, CPX and CPY comparing register `r` with `m` (R164). -/
def Status.afterCompare (p : Status) (r m : Byte) : Status :=
  { p with c := decide (m.toNat ≤ r.toNat), z := r == m, n := bit (r - m) 7 }

/-- The flags of BIT (R187). -/
def Status.afterBit (p : Status) (a m : Byte) : Status :=
  { p with z := (a &&& m) == 0#8, v := bit m 6, n := bit m 7 }

/-- The flags of a shift: C is the bit shifted out, Z and N from the result (R180 to R183). -/
def Status.afterShift (p : Status) (result : Byte) (out : Bool) : Status := { p.setZN result with c := out }

/-- ASL: the result and the bit shifted out (R180). -/
def aslBits (v : Byte) (_carry : Bool) : Byte × Bool := (v <<< 1, bit v 7)

/-- LSR: the result and the bit shifted out (R181). -/
def lsrBits (v : Byte) (_carry : Bool) : Byte × Bool := (v >>> 1, bit v 0)

/-- ROL: the old carry enters at bit 0 (R182). -/
def rolBits (v : Byte) (carry : Bool) : Byte × Bool := (v <<< 1 ||| BitVec.ofNat 8 carry.toNat, bit v 7)

/-- ROR: the old carry enters at bit 7 (R183). -/
def rorBits (v : Byte) (carry : Bool) : Byte × Bool := (v >>> 1 ||| BitVec.ofNat 8 carry.toNat <<< 7, bit v 0)

end Sys2Proof.Machine
end

