-- ==== Sys2Proof/Machine/Ops.lean ====
section
/-! DEFINITION. The named operations over storage and registers (00_scope.md R9): the storage interface and its
observers, fetch, push and pull, the two-byte reads; fault entry (60_exceptions.md R261), trap entry and return
(R265, R266) and reset (70_reset_and_hazards.md R300). -/

namespace Sys2Proof

/-- The address lies in the interval. -/
def AddrInterval.contains (r : AddrInterval) (a : Word) : Bool :=
  decide (r.first.toNat ≤ a.toNat) && decide (a.toNat ≤ r.last.toNat)

/-- The address lies in the registered range (R53). -/
def Registration.covers (r : Registration) (a : Word) : Bool := r.range.any (fun iv => iv.contains a)

/-- The address an access goes to. -/
def Machine.Access.addr : Machine.Access → Word
  | .onRead a => a
  | .onWrite a _ => a

/-- The notifications of one access: one for each registration whose range contains the address, in registration
order (R53, D18). DESIGN CHOICE (log entry 5): the spec is silent on whether an observer named by two such registrations
is notified once or twice; here it is notified for each. -/
def Params.notifications (ps : Params) (acc : Machine.Access) : List Machine.Event :=
  (ps.observers.filter (fun r => r.covers acc.addr)).map (fun r => { observer := r.observer, access := acc })

/-- The notifications of accesses made in this order. -/
def Params.notificationsOf (ps : Params) (accs : List Machine.Access) : List Machine.Event :=
  accs.flatMap ps.notifications

end Sys2Proof

namespace Sys2Proof.Machine

/-- What a step or an instruction answers. -/
abbrev Result := Host.Outcome State Fault Refusal

/-- The cause numbers of the fault kinds: DecodeError = 1, UnsupportedFeature = 2 (R260, D13). -/
def FaultKind.code : FaultKind → Nat
  | .decodeError => 1
  | .unsupportedFeature => 2

/-- Append the notifications of some accesses to the trace, in their order (R42, R53). -/
def State.record (s : State) (accs : List Access) : State :=
  { s with trace := s.trace ++ s.params.notificationsOf accs }

/-- The byte the storage holds at an address; looking at it is no access. -/
def State.byteAt (s : State) (a : Word) : Byte := s.mem.read a.toNat

/-- `MemRead(a, 1)`, one `readByte` (R9, R51, R53). -/
def State.readByte (s : State) (a : Word) : Byte × State := (s.byteAt a, s.record [.onRead a])

/-- `MemWrite(a, 1, v)`, one `writeByte` (R9, R52, R53). -/
def State.writeByte (s : State) (a : Word) (v : Byte) : State :=
  { s with mem := s.mem.write a.toNat v }.record [.onWrite a v]

/-- `Read16(a)`: low byte at `a`, then high byte at `a + 1` modulo 65,536 (R9, R55, R56). -/
def State.read16 (s : State) (a : Word) : Word × State :=
  let l := s.readByte a
  let h := l.2.readByte (a + 1)
  (join h.1 l.1, h.2)

/-- `Fetch8()` (R9, R27). -/
def State.fetch8 (s : State) : Byte × State :=
  let b := s.readByte s.pc
  (b.1, { b.2 with pc := b.2.pc + 1 })

/-- Fetch `n` bytes: the reads at PC and the advance of PC. The bytes themselves stand in the decoded
instruction (log entry 4). -/
def State.fetch : Nat → State → State
  | 0, s => s
  | n + 1, s => State.fetch n s.fetch8.2

/-- The bytes that stand at an address and after it, addresses modulo 65,536 (R81). -/
def State.bytesFrom (s : State) (a : Word) : Nat → List Byte
  | 0 => []
  | n + 1 => s.byteAt a :: State.bytesFrom s (a + 1) n

/-- `Push(v)`: write at `0x0100 | SP`, then decrement SP modulo 256 (R24, R25). -/
def State.push (s : State) (v : Byte) : State :=
  let w := s.writeByte (stackAddr s.sp) v
  { w with sp := w.sp - 1 }

/-- `Pull()`: increment SP modulo 256, then read at `0x0100 | SP` (R24, R26). -/
def State.pull (s : State) : Byte × State :=
  let t := { s with sp := s.sp + 1 }
  t.readByte (stackAddr t.sp)

/-- Push a word, high byte first (R210, D10). -/
def State.push16 (s : State) (w : Word) : State := (s.push (hi w)).push (lo w)

/-- Pull a word, low byte first (R211). -/
def State.pull16 (s : State) : Word × State :=
  let l := s.pull
  let h := l.2.pull
  (join h.1 l.1, h.2)

/-- Fault entry (R261): registers, flags, PC and storage as at the start of the step, which is `start`; the trace
is the one of `now`, the state with the reads made so far; the record holds kind, address and opcode. -/
def raiseFault (kind : FaultKind) (opcode : Byte) (start now : State) : State :=
  { start with run := .faulted kind start.pc opcode, trace := now.trace }

/-- Trap entry (R265, R212): push the packed status, push the return address high byte first, take PC from the
BRK vector, then set B. I and the other flags stay. -/
def trapEntry (returnAddress : Word) (s : State) : State :=
  let pushed := (s.push s.p.pack).push16 returnAddress
  let target := pushed.read16 brkVector
  { target.2 with pc := target.1, p := { target.2.p with b := true } }

/-- Trap return (R266, R213): pull the return address, low byte first and with no increment, then all seven flags. -/
def trapReturn (s : State) : State :=
  let target := s.pull16
  let status := target.2.pull
  { status.2 with pc := target.1, p := Status.unpack status.1 }

/-- `reset(memory)` (R300): run state Running, the open registers and flags from the draw (R44, D8), PC from the
RESET vector by two reads, the trace empty but for those reads. Storage is what the host loaded. -/
def State.hostReset (draw : ResetDraw) (s : State) : State :=
  let t : State :=
    { a := draw.a, x := draw.x, y := draw.y, sp := draw.sp, pc := s.pc, p := draw.p
      mem := s.mem, run := .running, trace := [], params := s.params }
  let v := t.read16 resetVector
  { v.2 with pc := v.1 }

/-- The host loads an image before reset (R274): it becomes the storage. -/
def State.hostLoad (image : List Byte) (s : State) : State := { s with mem := Memory.ofImage image }

/-- The host registers an observer before reset (R53, R274). -/
def State.hostRegister (r : Registration) (s : State) : State :=
  { s with params := { s.params with observers := s.params.observers ++ [r] } }

end Sys2Proof.Machine
end

