-- ==== Sys2Proof/Machine/Operands.lean ====
section
/-! DEFINITION. The addressing-mode resolver (40_engine_addressing.md R112 to R127). Each `resolve` or `read` starts
after the opcode fetch, fetches the operand bytes and answers the operand with the state that follows. -/

namespace Sys2Proof

open Machine

/-- The word whose low byte is in zero-page cell `p` and whose high byte is in the next zero-page cell, which
wraps within page 0 (R125, R126, D4, D5). -/
def zeroPagePointer (s : State) (p : Byte) : Word := join (s.byteAt (zext16 (p + 1))) (s.byteAt (zext16 p))

/-- The effective address of an operand (R118 to R123, R125, R126). Additions on a Byte are modulo 256 and on a Word
modulo 65,536 (R7, R83). -/
def MemOperand.ea (m : MemOperand) (s : State) : Word :=
  match m with
  | .zeroPage nn => zext16 nn
  | .zeroPageX nn => zext16 (nn + s.x)
  | .zeroPageY nn => zext16 (nn + s.y)
  | .absolute w => w
  | .absoluteX w => w + zext16 s.x
  | .absoluteY w => w + zext16 s.y
  | .indirectX nn => zeroPagePointer s (nn + s.x)
  | .indirectY nn => zeroPagePointer s nn + zext16 s.y

/-- The addresses of the pointer bytes the resolver reads, low byte first (R58, R125, R126). -/
def MemOperand.pointerCells (m : MemOperand) (s : State) : List Word :=
  match m with
  | .zeroPage _ => []
  | .zeroPageX _ => []
  | .zeroPageY _ => []
  | .absolute _ => []
  | .absoluteX _ => []
  | .absoluteY _ => []
  | .indirectX nn => [zext16 (nn + s.x), zext16 (nn + s.x + 1)]
  | .indirectY nn => [zext16 nn, zext16 (nn + 1)]

/-- `Resolve(mode)` to `Addr(EA)` (R112): the operand bytes are fetched, then the pointer is read. The effective
address depends on X, Y and storage, which the fetch leaves alone. -/
def MemOperand.resolve (m : MemOperand) (s : State) : Word × State :=
  (m.ea s, (s.fetch m.width).record ((m.pointerCells s).map .onRead))

/-- `M` (R10, R113): the immediate byte, or one read at the effective address. -/
def Source.read (src : Source) (s : State) : Byte × State :=
  match src with
  | .immediate v => (v, s.fetch 1)
  | .memory m =>
    let r := m.resolve s
    r.2.readByte r.1

/-- The target of a branch (R127): the absolute operand, or the signed offset from the next instruction, PC being
past the offset. -/
def BranchArg.resolve (t : BranchArg) (s : State) : Word × State :=
  let r := s.fetch t.width
  match t with
  | .abs16 w => (w, r)
  | .rel8 o => (r.pc + sext16 o, r)

namespace Machine

/-- The opcode fetch that opens every instruction (R111): one read at PC, PC + 1. -/
def State.opcodeFetched (s : State) : State := s.fetch 1

/-- Read, change and write back the operand of a shift, with its flags (43_shift_logic.md, head): `f` gives the
result and the bit shifted out. Memory is read once and written once (R59). -/
def shiftTarget (f : Byte → Bool → Byte × Bool) (t : Target) (s : State) : State :=
  let o := s.opcodeFetched
  match t with
  | .accumulator =>
    let r := f o.a o.p.c
    { o with a := r.1, p := o.p.afterShift r.1 r.2 }
  | .memory m =>
    let ea := m.resolve o
    let v := ea.2.readByte ea.1
    let r := f v.1 v.2.p.c
    let w := v.2.writeByte ea.1 r.1
    { w with p := w.p.afterShift r.1 r.2 }

/-- Read, change and write back a byte of memory, with Z and N (R167, R168): one read, one write (R59). -/
def modifyByte (f : Byte → Byte) (m : MemOperand) (s : State) : State :=
  let ea := m.resolve s.opcodeFetched
  let v := ea.2.readByte ea.1
  let w := v.2.writeByte ea.1 (f v.1)
  { w with p := w.p.setZN (f v.1) }

/-- Write a register's byte at the effective address, which is not read (R59, R143 to R145). -/
def storeByte (v : Byte) (m : MemOperand) (s : State) : State :=
  let ea := m.resolve s.opcodeFetched
  ea.2.writeByte ea.1 v

end Machine

end Sys2Proof
end

