-- ==== Sys2Proof/Machine/Arithmetic.lean ====
section
/-! DEFINITION. Arithmetic, compare, increment and decrement (42_arithmetic.md): shared operations, then one meaning per instruction. -/

namespace Sys2Proof.Machine

/-- ADC on the byte `change M` (R162): with D = 1 the step faults right after the opcode fetch (R161, D11); else the
binary sum with carry goes to A. SBC is the same on the complement of M (R163). -/
def addWithCarry (opcode : Byte) (change : Byte → Byte) (src : Source) (s : State) : State :=
  if s.p.d then raiseFault .unsupportedFeature opcode s s.opcodeFetched
  else
    let m := src.read s.opcodeFetched
    { m.2 with
      a := adcResult m.2.a (change m.1) m.2.p.c
      p := m.2.p.afterAdc m.2.a (change m.1) }

/-- Compare a register's byte with M: flags only (R164). -/
def compareWith (r : Byte) (src : Source) (s : State) : State :=
  let m := src.read s.opcodeFetched
  { m.2 with p := m.2.p.afterCompare r m.1 }

/-- INX, DEX: write X with Z and N (R169, R171). -/
def setX (v : Byte) (s : State) : State := { s with x := v, p := s.p.setZN v }

/-- INY, DEY: write Y with Z and N (R170, R172). -/
def setY (v : Byte) (s : State) : State := { s with y := v, p := s.p.setZN v }

/-- ADC #nn (R162). -/
def execAdcImm (v : Byte) (s : State) : Result :=
  .next (addWithCarry (Instr.adcImm v).opcode id (.immediate v) s)

/-- ADC $nn (R162). -/
def execAdcZp (nn : Byte) (s : State) : Result :=
  .next (addWithCarry (Instr.adcZp nn).opcode id (.memory (.zeroPage nn)) s)

/-- ADC $nn,X (R162). -/
def execAdcZpX (nn : Byte) (s : State) : Result :=
  .next (addWithCarry (Instr.adcZpX nn).opcode id (.memory (.zeroPageX nn)) s)

/-- ADC $nnnn (R162). -/
def execAdcAbs (w : Word) (s : State) : Result :=
  .next (addWithCarry (Instr.adcAbs w).opcode id (.memory (.absolute w)) s)

/-- ADC $nnnn,X (R162). -/
def execAdcAbsX (w : Word) (s : State) : Result :=
  .next (addWithCarry (Instr.adcAbsX w).opcode id (.memory (.absoluteX w)) s)

/-- ADC $nnnn,Y (R162). -/
def execAdcAbsY (w : Word) (s : State) : Result :=
  .next (addWithCarry (Instr.adcAbsY w).opcode id (.memory (.absoluteY w)) s)

/-- ADC ($nn,X) (R162). -/
def execAdcIndX (nn : Byte) (s : State) : Result :=
  .next (addWithCarry (Instr.adcIndX nn).opcode id (.memory (.indirectX nn)) s)

/-- ADC ($nn),Y (R162). -/
def execAdcIndY (nn : Byte) (s : State) : Result :=
  .next (addWithCarry (Instr.adcIndY nn).opcode id (.memory (.indirectY nn)) s)

/-- SBC #nn (R163). -/
def execSbcImm (v : Byte) (s : State) : Result :=
  .next (addWithCarry (Instr.sbcImm v).opcode (fun m => ~~~m) (.immediate v) s)

/-- SBC $nn (R163). -/
def execSbcZp (nn : Byte) (s : State) : Result :=
  .next (addWithCarry (Instr.sbcZp nn).opcode (fun m => ~~~m) (.memory (.zeroPage nn)) s)

/-- SBC $nn,X (R163). -/
def execSbcZpX (nn : Byte) (s : State) : Result :=
  .next (addWithCarry (Instr.sbcZpX nn).opcode (fun m => ~~~m) (.memory (.zeroPageX nn)) s)

/-- SBC $nnnn (R163). -/
def execSbcAbs (w : Word) (s : State) : Result :=
  .next (addWithCarry (Instr.sbcAbs w).opcode (fun m => ~~~m) (.memory (.absolute w)) s)

/-- SBC $nnnn,X (R163). -/
def execSbcAbsX (w : Word) (s : State) : Result :=
  .next (addWithCarry (Instr.sbcAbsX w).opcode (fun m => ~~~m) (.memory (.absoluteX w)) s)

/-- SBC $nnnn,Y (R163). -/
def execSbcAbsY (w : Word) (s : State) : Result :=
  .next (addWithCarry (Instr.sbcAbsY w).opcode (fun m => ~~~m) (.memory (.absoluteY w)) s)

/-- SBC ($nn,X) (R163). -/
def execSbcIndX (nn : Byte) (s : State) : Result :=
  .next (addWithCarry (Instr.sbcIndX nn).opcode (fun m => ~~~m) (.memory (.indirectX nn)) s)

/-- SBC ($nn),Y (R163). -/
def execSbcIndY (nn : Byte) (s : State) : Result :=
  .next (addWithCarry (Instr.sbcIndY nn).opcode (fun m => ~~~m) (.memory (.indirectY nn)) s)

/-- CMP #nn (R164). -/
def execCmpImm (v : Byte) (s : State) : Result :=
  .next (compareWith s.a (.immediate v) s)

/-- CMP $nn (R164). -/
def execCmpZp (nn : Byte) (s : State) : Result :=
  .next (compareWith s.a (.memory (.zeroPage nn)) s)

/-- CMP $nn,X (R164). -/
def execCmpZpX (nn : Byte) (s : State) : Result :=
  .next (compareWith s.a (.memory (.zeroPageX nn)) s)

/-- CMP $nnnn (R164). -/
def execCmpAbs (w : Word) (s : State) : Result :=
  .next (compareWith s.a (.memory (.absolute w)) s)

/-- CMP $nnnn,X (R164). -/
def execCmpAbsX (w : Word) (s : State) : Result :=
  .next (compareWith s.a (.memory (.absoluteX w)) s)

/-- CMP $nnnn,Y (R164). -/
def execCmpAbsY (w : Word) (s : State) : Result :=
  .next (compareWith s.a (.memory (.absoluteY w)) s)

/-- CMP ($nn,X) (R164). -/
def execCmpIndX (nn : Byte) (s : State) : Result :=
  .next (compareWith s.a (.memory (.indirectX nn)) s)

/-- CMP ($nn),Y (R164). -/
def execCmpIndY (nn : Byte) (s : State) : Result :=
  .next (compareWith s.a (.memory (.indirectY nn)) s)

/-- CPX #nn (R165). -/
def execCpxImm (v : Byte) (s : State) : Result :=
  .next (compareWith s.x (.immediate v) s)

/-- CPX $nn (R165). -/
def execCpxZp (nn : Byte) (s : State) : Result :=
  .next (compareWith s.x (.memory (.zeroPage nn)) s)

/-- CPX $nnnn (R165). -/
def execCpxAbs (w : Word) (s : State) : Result :=
  .next (compareWith s.x (.memory (.absolute w)) s)

/-- CPY #nn (R166). -/
def execCpyImm (v : Byte) (s : State) : Result :=
  .next (compareWith s.y (.immediate v) s)

/-- CPY $nn (R166). -/
def execCpyZp (nn : Byte) (s : State) : Result :=
  .next (compareWith s.y (.memory (.zeroPage nn)) s)

/-- CPY $nnnn (R166). -/
def execCpyAbs (w : Word) (s : State) : Result :=
  .next (compareWith s.y (.memory (.absolute w)) s)

/-- INC $nn (R167). -/
def execIncZp (nn : Byte) (s : State) : Result :=
  .next (modifyByte (fun v => v + 1) (.zeroPage nn) s)

/-- INC $nn,X (R167). -/
def execIncZpX (nn : Byte) (s : State) : Result :=
  .next (modifyByte (fun v => v + 1) (.zeroPageX nn) s)

/-- INC $nnnn (R167). -/
def execIncAbs (w : Word) (s : State) : Result :=
  .next (modifyByte (fun v => v + 1) (.absolute w) s)

/-- INC $nnnn,X (R167). -/
def execIncAbsX (w : Word) (s : State) : Result :=
  .next (modifyByte (fun v => v + 1) (.absoluteX w) s)

/-- DEC $nn (R168). -/
def execDecZp (nn : Byte) (s : State) : Result :=
  .next (modifyByte (fun v => v - 1) (.zeroPage nn) s)

/-- DEC $nn,X (R168). -/
def execDecZpX (nn : Byte) (s : State) : Result :=
  .next (modifyByte (fun v => v - 1) (.zeroPageX nn) s)

/-- DEC $nnnn (R168). -/
def execDecAbs (w : Word) (s : State) : Result :=
  .next (modifyByte (fun v => v - 1) (.absolute w) s)

/-- DEC $nnnn,X (R168). -/
def execDecAbsX (w : Word) (s : State) : Result :=
  .next (modifyByte (fun v => v - 1) (.absoluteX w) s)

/-- INX (R169). -/
def execInx (s : State) : Result :=
  let o := s.opcodeFetched
  .next (setX (o.x + 1) o)

/-- INY (R170). -/
def execIny (s : State) : Result :=
  let o := s.opcodeFetched
  .next (setY (o.y + 1) o)

/-- DEX (R171). -/
def execDex (s : State) : Result :=
  let o := s.opcodeFetched
  .next (setX (o.x - 1) o)

/-- DEY (R172). -/
def execDey (s : State) : Result :=
  let o := s.opcodeFetched
  .next (setY (o.y - 1) o)

end Sys2Proof.Machine
end

