-- ==== Sys2Proof/Machine/Control.lean ====
section
/-! DEFINITION. Branches, jumps, subroutine calls, BRK and RTI (44_control_transfer.md): shared operations, then one meaning per instruction. -/

namespace Sys2Proof.Machine

/-- A branch: on a match PC takes the operand's address, else it stays at the next instruction (R200). -/
def branchIf (cond : Bool) (t : BranchArg) (s : State) : State :=
  let r := t.resolve s.opcodeFetched
  if cond then { r.2 with pc := r.1 } else r.2

/-- JMP absolute (R209, R121). -/
def jumpTo (w : Word) (s : State) : State := { s.opcodeFetched.fetch 2 with pc := w }

/-- JMP indirect (R209, R124): a pointer whose low byte is 0xFF faults after the operand bytes and before the
pointer is read (D12). -/
def jumpThrough (opcode : Byte) (ptr : Word) (s : State) : State :=
  let f := s.opcodeFetched.fetch 2
  if lo ptr = 0xFF#8 then raiseFault .unsupportedFeature opcode s f
  else
    let t := f.read16 ptr
    { t.2 with pc := t.1 }

/-- JSR: push the address of its own last byte, high byte first, then jump (R210). -/
def callTo (w : Word) (s : State) : State :=
  let f := s.opcodeFetched.fetch 2
  { f.push16 (f.pc - 1) with pc := w }

/-- RTS: pull an address, low byte first, and go one past it (R211). -/
def returnFromCall (s : State) : State :=
  let r := s.opcodeFetched.pull16
  { r.2 with pc := r.1 + 1 }

/-- BCC $nnnn (ABS16) / offset (REL8) (R201). -/
def execBcc (t : BranchArg) (s : State) : Result :=
  .next (branchIf (!s.p.c) t s)

/-- BCS $nnnn (ABS16) / offset (REL8) (R202). -/
def execBcs (t : BranchArg) (s : State) : Result :=
  .next (branchIf s.p.c t s)

/-- BEQ $nnnn (ABS16) / offset (REL8) (R203). -/
def execBeq (t : BranchArg) (s : State) : Result :=
  .next (branchIf s.p.z t s)

/-- BMI $nnnn (ABS16) / offset (REL8) (R204). -/
def execBmi (t : BranchArg) (s : State) : Result :=
  .next (branchIf s.p.n t s)

/-- BNE $nnnn (ABS16) / offset (REL8) (R205). -/
def execBne (t : BranchArg) (s : State) : Result :=
  .next (branchIf (!s.p.z) t s)

/-- BPL $nnnn (ABS16) / offset (REL8) (R206). -/
def execBpl (t : BranchArg) (s : State) : Result :=
  .next (branchIf (!s.p.n) t s)

/-- BVC $nnnn (ABS16) / offset (REL8) (R207). -/
def execBvc (t : BranchArg) (s : State) : Result :=
  .next (branchIf (!s.p.v) t s)

/-- BVS $nnnn (ABS16) / offset (REL8) (R208). -/
def execBvs (t : BranchArg) (s : State) : Result :=
  .next (branchIf s.p.v t s)

/-- JMP $nnnn (R209). -/
def execJmpAbs (w : Word) (s : State) : Result :=
  .next (jumpTo w s)

/-- JMP ($nnnn) (R209). -/
def execJmpInd (w : Word) (s : State) : Result :=
  .next (jumpThrough (Instr.jmpInd w).opcode w s)

/-- JSR $nnnn (R210). -/
def execJsrAbs (w : Word) (s : State) : Result :=
  .next (callTo w s)

/-- RTS (R211). -/
def execRts (s : State) : Result :=
  .next (returnFromCall s)

/-- BRK (R212). -/
def execBrk (s : State) : Result :=
  .next (trapEntry (s.pc + 2) s.opcodeFetched)

/-- RTI (R213). -/
def execRti (s : State) : Result :=
  .next (trapReturn s.opcodeFetched)

end Sys2Proof.Machine
end

