-- ==== Sys2Proof/Machine/FlagOps.lean ====
section
/-! DEFINITION. Flag instructions and NOP (46_flags_nop.md): one meaning per instruction. -/

namespace Sys2Proof.Machine

/-- An instruction that changes the status alone: the opcode is fetched, then the flags are overridden (R28). -/
def withStatus (f : Status → Status) (s : State) : State :=
  { s.opcodeFetched with p := f s.opcodeFetched.p }

/-- CLC (R240). -/
def execClc (s : State) : Result :=
  .next (withStatus (fun p => { p with c := false }) s)

/-- SEC (R241). -/
def execSec (s : State) : Result :=
  .next (withStatus (fun p => { p with c := true }) s)

/-- CLI (R242). -/
def execCli (s : State) : Result :=
  .next (withStatus (fun p => { p with i := false }) s)

/-- SEI (R243). -/
def execSei (s : State) : Result :=
  .next (withStatus (fun p => { p with i := true }) s)

/-- CLD (R244). -/
def execCld (s : State) : Result :=
  .next (withStatus (fun p => { p with d := false }) s)

/-- SED (R245). -/
def execSed (s : State) : Result :=
  .next (withStatus (fun p => { p with d := true }) s)

/-- CLV (R246). -/
def execClv (s : State) : Result :=
  .next (withStatus (fun p => { p with v := false }) s)

/-- NOP (R247). -/
def execNop (s : State) : Result :=
  .next s.opcodeFetched

end Sys2Proof.Machine
end

