-- ==== Sys2Proof/Machine/LoadStore.lean ====
section
/-! DEFINITION. Loads, stores and register transfers (41_load_store_transfer.md): shared operations, then one meaning per instruction. -/

namespace Sys2Proof.Machine

/-- LDA: `A <- M; SetZN(A)` (R140). -/
def loadA (src : Source) (s : State) : State :=
  let m := src.read s.opcodeFetched
  { m.2 with a := m.1, p := m.2.p.setZN m.1 }

/-- LDX: `X <- M; SetZN(X)` (R141). -/
def loadX (src : Source) (s : State) : State :=
  let m := src.read s.opcodeFetched
  { m.2 with x := m.1, p := m.2.p.setZN m.1 }

/-- LDY: `Y <- M; SetZN(Y)` (R142). -/
def loadY (src : Source) (s : State) : State :=
  let m := src.read s.opcodeFetched
  { m.2 with y := m.1, p := m.2.p.setZN m.1 }

/-- LDA #nn (R140). -/
def execLdaImm (v : Byte) (s : State) : Result :=
  .next (loadA (.immediate v) s)

/-- LDA $nn (R140). -/
def execLdaZp (nn : Byte) (s : State) : Result :=
  .next (loadA (.memory (.zeroPage nn)) s)

/-- LDA $nn,X (R140). -/
def execLdaZpX (nn : Byte) (s : State) : Result :=
  .next (loadA (.memory (.zeroPageX nn)) s)

/-- LDA $nnnn (R140). -/
def execLdaAbs (w : Word) (s : State) : Result :=
  .next (loadA (.memory (.absolute w)) s)

/-- LDA $nnnn,X (R140). -/
def execLdaAbsX (w : Word) (s : State) : Result :=
  .next (loadA (.memory (.absoluteX w)) s)

/-- LDA $nnnn,Y (R140). -/
def execLdaAbsY (w : Word) (s : State) : Result :=
  .next (loadA (.memory (.absoluteY w)) s)

/-- LDA ($nn,X) (R140). -/
def execLdaIndX (nn : Byte) (s : State) : Result :=
  .next (loadA (.memory (.indirectX nn)) s)

/-- LDA ($nn),Y (R140). -/
def execLdaIndY (nn : Byte) (s : State) : Result :=
  .next (loadA (.memory (.indirectY nn)) s)

/-- LDX #nn (R141). -/
def execLdxImm (v : Byte) (s : State) : Result :=
  .next (loadX (.immediate v) s)

/-- LDX $nn (R141). -/
def execLdxZp (nn : Byte) (s : State) : Result :=
  .next (loadX (.memory (.zeroPage nn)) s)

/-- LDX $nn,Y (R141). -/
def execLdxZpY (nn : Byte) (s : State) : Result :=
  .next (loadX (.memory (.zeroPageY nn)) s)

/-- LDX $nnnn (R141). -/
def execLdxAbs (w : Word) (s : State) : Result :=
  .next (loadX (.memory (.absolute w)) s)

/-- LDX $nnnn,Y (R141). -/
def execLdxAbsY (w : Word) (s : State) : Result :=
  .next (loadX (.memory (.absoluteY w)) s)

/-- LDY #nn (R142). -/
def execLdyImm (v : Byte) (s : State) : Result :=
  .next (loadY (.immediate v) s)

/-- LDY $nn (R142). -/
def execLdyZp (nn : Byte) (s : State) : Result :=
  .next (loadY (.memory (.zeroPage nn)) s)

/-- LDY $nn,X (R142). -/
def execLdyZpX (nn : Byte) (s : State) : Result :=
  .next (loadY (.memory (.zeroPageX nn)) s)

/-- LDY $nnnn (R142). -/
def execLdyAbs (w : Word) (s : State) : Result :=
  .next (loadY (.memory (.absolute w)) s)

/-- LDY $nnnn,X (R142). -/
def execLdyAbsX (w : Word) (s : State) : Result :=
  .next (loadY (.memory (.absoluteX w)) s)

/-- STA $nn (R143). -/
def execStaZp (nn : Byte) (s : State) : Result :=
  .next (storeByte s.a (.zeroPage nn) s)

/-- STA $nn,X (R143). -/
def execStaZpX (nn : Byte) (s : State) : Result :=
  .next (storeByte s.a (.zeroPageX nn) s)

/-- STA $nnnn (R143). -/
def execStaAbs (w : Word) (s : State) : Result :=
  .next (storeByte s.a (.absolute w) s)

/-- STA $nnnn,X (R143). -/
def execStaAbsX (w : Word) (s : State) : Result :=
  .next (storeByte s.a (.absoluteX w) s)

/-- STA $nnnn,Y (R143). -/
def execStaAbsY (w : Word) (s : State) : Result :=
  .next (storeByte s.a (.absoluteY w) s)

/-- STA ($nn,X) (R143). -/
def execStaIndX (nn : Byte) (s : State) : Result :=
  .next (storeByte s.a (.indirectX nn) s)

/-- STA ($nn),Y (R143). -/
def execStaIndY (nn : Byte) (s : State) : Result :=
  .next (storeByte s.a (.indirectY nn) s)

/-- STX $nn (R144). -/
def execStxZp (nn : Byte) (s : State) : Result :=
  .next (storeByte s.x (.zeroPage nn) s)

/-- STX $nn,Y (R144). -/
def execStxZpY (nn : Byte) (s : State) : Result :=
  .next (storeByte s.x (.zeroPageY nn) s)

/-- STX $nnnn (R144). -/
def execStxAbs (w : Word) (s : State) : Result :=
  .next (storeByte s.x (.absolute w) s)

/-- STY $nn (R145). -/
def execStyZp (nn : Byte) (s : State) : Result :=
  .next (storeByte s.y (.zeroPage nn) s)

/-- STY $nn,X (R145). -/
def execStyZpX (nn : Byte) (s : State) : Result :=
  .next (storeByte s.y (.zeroPageX nn) s)

/-- STY $nnnn (R145). -/
def execStyAbs (w : Word) (s : State) : Result :=
  .next (storeByte s.y (.absolute w) s)

/-- TAX (R146). -/
def execTax (s : State) : Result :=
  let o := s.opcodeFetched
  .next { o with x := o.a, p := o.p.setZN o.a }

/-- TAY (R147). -/
def execTay (s : State) : Result :=
  let o := s.opcodeFetched
  .next { o with y := o.a, p := o.p.setZN o.a }

/-- TXA (R148). -/
def execTxa (s : State) : Result :=
  let o := s.opcodeFetched
  .next { o with a := o.x, p := o.p.setZN o.x }

/-- TYA (R149). -/
def execTya (s : State) : Result :=
  let o := s.opcodeFetched
  .next { o with a := o.y, p := o.p.setZN o.y }

end Sys2Proof.Machine
end

