-- ==== Sys2Proof/Machine/ShiftLogic.lean ====
section
/-! DEFINITION. Shifts, rotates, logical operations and BIT (43_shift_logic.md): shared operations, then one meaning per instruction. -/

namespace Sys2Proof.Machine

/-- AND, ORA, EOR: `A <- f A M; SetZN(A)` (R184 to R186). -/
def combineA (f : Byte → Byte → Byte) (src : Source) (s : State) : State :=
  let m := src.read s.opcodeFetched
  { m.2 with a := f m.2.a m.1, p := m.2.p.setZN (f m.2.a m.1) }

/-- BIT: flags only (R187). -/
def testBits (m : MemOperand) (s : State) : State :=
  let v := (Source.memory m).read s.opcodeFetched
  { v.2 with p := v.2.p.afterBit v.2.a v.1 }

/-- ASL A (R180). -/
def execAslAcc (s : State) : Result :=
  .next (shiftTarget aslBits .accumulator s)

/-- ASL $nn (R180). -/
def execAslZp (nn : Byte) (s : State) : Result :=
  .next (shiftTarget aslBits (.memory (.zeroPage nn)) s)

/-- ASL $nn,X (R180). -/
def execAslZpX (nn : Byte) (s : State) : Result :=
  .next (shiftTarget aslBits (.memory (.zeroPageX nn)) s)

/-- ASL $nnnn (R180). -/
def execAslAbs (w : Word) (s : State) : Result :=
  .next (shiftTarget aslBits (.memory (.absolute w)) s)

/-- ASL $nnnn,X (R180). -/
def execAslAbsX (w : Word) (s : State) : Result :=
  .next (shiftTarget aslBits (.memory (.absoluteX w)) s)

/-- LSR A (R181). -/
def execLsrAcc (s : State) : Result :=
  .next (shiftTarget lsrBits .accumulator s)

/-- LSR $nn (R181). -/
def execLsrZp (nn : Byte) (s : State) : Result :=
  .next (shiftTarget lsrBits (.memory (.zeroPage nn)) s)

/-- LSR $nn,X (R181). -/
def execLsrZpX (nn : Byte) (s : State) : Result :=
  .next (shiftTarget lsrBits (.memory (.zeroPageX nn)) s)

/-- LSR $nnnn (R181). -/
def execLsrAbs (w : Word) (s : State) : Result :=
  .next (shiftTarget lsrBits (.memory (.absolute w)) s)

/-- LSR $nnnn,X (R181). -/
def execLsrAbsX (w : Word) (s : State) : Result :=
  .next (shiftTarget lsrBits (.memory (.absoluteX w)) s)

/-- ROL A (R182). -/
def execRolAcc (s : State) : Result :=
  .next (shiftTarget rolBits .accumulator s)

/-- ROL $nn (R182). -/
def execRolZp (nn : Byte) (s : State) : Result :=
  .next (shiftTarget rolBits (.memory (.zeroPage nn)) s)

/-- ROL $nn,X (R182). -/
def execRolZpX (nn : Byte) (s : State) : Result :=
  .next (shiftTarget rolBits (.memory (.zeroPageX nn)) s)

/-- ROL $nnnn (R182). -/
def execRolAbs (w : Word) (s : State) : Result :=
  .next (shiftTarget rolBits (.memory (.absolute w)) s)

/-- ROL $nnnn,X (R182). -/
def execRolAbsX (w : Word) (s : State) : Result :=
  .next (shiftTarget rolBits (.memory (.absoluteX w)) s)

/-- ROR A (R183). -/
def execRorAcc (s : State) : Result :=
  .next (shiftTarget rorBits .accumulator s)

/-- ROR $nn (R183). -/
def execRorZp (nn : Byte) (s : State) : Result :=
  .next (shiftTarget rorBits (.memory (.zeroPage nn)) s)

/-- ROR $nn,X (R183). -/
def execRorZpX (nn : Byte) (s : State) : Result :=
  .next (shiftTarget rorBits (.memory (.zeroPageX nn)) s)

/-- ROR $nnnn (R183). -/
def execRorAbs (w : Word) (s : State) : Result :=
  .next (shiftTarget rorBits (.memory (.absolute w)) s)

/-- ROR $nnnn,X (R183). -/
def execRorAbsX (w : Word) (s : State) : Result :=
  .next (shiftTarget rorBits (.memory (.absoluteX w)) s)

/-- AND #nn (R184). -/
def execAndImm (v : Byte) (s : State) : Result :=
  .next (combineA (fun a m => a &&& m) (.immediate v) s)

/-- AND $nn (R184). -/
def execAndZp (nn : Byte) (s : State) : Result :=
  .next (combineA (fun a m => a &&& m) (.memory (.zeroPage nn)) s)

/-- AND $nn,X (R184). -/
def execAndZpX (nn : Byte) (s : State) : Result :=
  .next (combineA (fun a m => a &&& m) (.memory (.zeroPageX nn)) s)

/-- AND $nnnn (R184). -/
def execAndAbs (w : Word) (s : State) : Result :=
  .next (combineA (fun a m => a &&& m) (.memory (.absolute w)) s)

/-- AND $nnnn,X (R184). -/
def execAndAbsX (w : Word) (s : State) : Result :=
  .next (combineA (fun a m => a &&& m) (.memory (.absoluteX w)) s)

/-- AND $nnnn,Y (R184). -/
def execAndAbsY (w : Word) (s : State) : Result :=
  .next (combineA (fun a m => a &&& m) (.memory (.absoluteY w)) s)

/-- AND ($nn,X) (R184). -/
def execAndIndX (nn : Byte) (s : State) : Result :=
  .next (combineA (fun a m => a &&& m) (.memory (.indirectX nn)) s)

/-- AND ($nn),Y (R184). -/
def execAndIndY (nn : Byte) (s : State) : Result :=
  .next (combineA (fun a m => a &&& m) (.memory (.indirectY nn)) s)

/-- ORA #nn (R185). -/
def execOraImm (v : Byte) (s : State) : Result :=
  .next (combineA (fun a m => a ||| m) (.immediate v) s)

/-- ORA $nn (R185). -/
def execOraZp (nn : Byte) (s : State) : Result :=
  .next (combineA (fun a m => a ||| m) (.memory (.zeroPage nn)) s)

/-- ORA $nn,X (R185). -/
def execOraZpX (nn : Byte) (s : State) : Result :=
  .next (combineA (fun a m => a ||| m) (.memory (.zeroPageX nn)) s)

/-- ORA $nnnn (R185). -/
def execOraAbs (w : Word) (s : State) : Result :=
  .next (combineA (fun a m => a ||| m) (.memory (.absolute w)) s)

/-- ORA $nnnn,X (R185). -/
def execOraAbsX (w : Word) (s : State) : Result :=
  .next (combineA (fun a m => a ||| m) (.memory (.absoluteX w)) s)

/-- ORA $nnnn,Y (R185). -/
def execOraAbsY (w : Word) (s : State) : Result :=
  .next (combineA (fun a m => a ||| m) (.memory (.absoluteY w)) s)

/-- ORA ($nn,X) (R185). -/
def execOraIndX (nn : Byte) (s : State) : Result :=
  .next (combineA (fun a m => a ||| m) (.memory (.indirectX nn)) s)

/-- ORA ($nn),Y (R185). -/
def execOraIndY (nn : Byte) (s : State) : Result :=
  .next (combineA (fun a m => a ||| m) (.memory (.indirectY nn)) s)

/-- EOR #nn (R186). -/
def execEorImm (v : Byte) (s : State) : Result :=
  .next (combineA (fun a m => a ^^^ m) (.immediate v) s)

/-- EOR $nn (R186). -/
def execEorZp (nn : Byte) (s : State) : Result :=
  .next (combineA (fun a m => a ^^^ m) (.memory (.zeroPage nn)) s)

/-- EOR $nn,X (R186). -/
def execEorZpX (nn : Byte) (s : State) : Result :=
  .next (combineA (fun a m => a ^^^ m) (.memory (.zeroPageX nn)) s)

/-- EOR $nnnn (R186). -/
def execEorAbs (w : Word) (s : State) : Result :=
  .next (combineA (fun a m => a ^^^ m) (.memory (.absolute w)) s)

/-- EOR $nnnn,X (R186). -/
def execEorAbsX (w : Word) (s : State) : Result :=
  .next (combineA (fun a m => a ^^^ m) (.memory (.absoluteX w)) s)

/-- EOR $nnnn,Y (R186). -/
def execEorAbsY (w : Word) (s : State) : Result :=
  .next (combineA (fun a m => a ^^^ m) (.memory (.absoluteY w)) s)

/-- EOR ($nn,X) (R186). -/
def execEorIndX (nn : Byte) (s : State) : Result :=
  .next (combineA (fun a m => a ^^^ m) (.memory (.indirectX nn)) s)

/-- EOR ($nn),Y (R186). -/
def execEorIndY (nn : Byte) (s : State) : Result :=
  .next (combineA (fun a m => a ^^^ m) (.memory (.indirectY nn)) s)

/-- BIT $nn (R187). -/
def execBitZp (nn : Byte) (s : State) : Result :=
  .next (testBits (.zeroPage nn) s)

/-- BIT $nnnn (R187). -/
def execBitAbs (w : Word) (s : State) : Result :=
  .next (testBits (.absolute w) s)

end Sys2Proof.Machine
end

