-- ==== Sys2Proof/Machine/Stack.lean ====
section
/-! DEFINITION. Stack operations (45_stack.md): one meaning per instruction. -/

namespace Sys2Proof.Machine

/-- PHA (R220). -/
def execPha (s : State) : Result :=
  let o := s.opcodeFetched
  .next (o.push o.a)

/-- PHP (R221). -/
def execPhp (s : State) : Result :=
  let o := s.opcodeFetched
  .next (o.push o.p.pack)

/-- PLA (R222). -/
def execPla (s : State) : Result :=
  let o := s.opcodeFetched
  .next { o.pull.2 with a := o.pull.1, p := o.pull.2.p.setZN o.pull.1 }

/-- PLP (R223). -/
def execPlp (s : State) : Result :=
  let o := s.opcodeFetched
  .next { o.pull.2 with p := Status.unpack o.pull.1 }

/-- TSX (R224). -/
def execTsx (s : State) : Result :=
  let o := s.opcodeFetched
  .next { o with x := o.sp, p := o.p.setZN o.sp }

/-- TXS (R225). -/
def execTxs (s : State) : Result :=
  let o := s.opcodeFetched
  .next { o with sp := o.x }

end Sys2Proof.Machine
end

