-- ==== Sys2Proof/Machine/Engine.lean ====
section
/-! DEFINITION. One step of a Running engine (40_engine_addressing.md R111): the bytes at PC are decoded and the
instruction is executed; an unassigned opcode byte is a DecodeError. -/

namespace Sys2Proof.Machine

/-- What the decoder reads at PC. Three bytes are the longest instruction (R80); only the bytes the instruction has
are fetched, by its meaning (log entry 4). -/
def State.decodeAtPc (s : State) : Except Reject (Instr × List Byte) :=
  decode s.params.branchOperand (s.bytesFrom s.pc 3)

/-- Fetch, decode, resolve and execute (R110, R111). A byte absent from the table raises DecodeError after the opcode
fetch alone (R87, R260, R261). -/
def runningStep (s : State) : Result :=
  match s.decodeAtPc with
  | .ok (i, _) => exec i s
  | .error _ => .next (raiseFault .decodeError (s.byteAt s.pc) s s.opcodeFetched)

/-- The step by run state: a Faulted engine has no step (R261, U11). -/
def engineStep (s : State) : Result :=
  match s.run with
  | .running => runningStep s
  | .faulted kind addr opcode => .fault (.engineFaulted kind addr opcode)

/-- Bytes placed at an address and after it, addresses modulo 65,536, with no notification: it is the host's load,
not an access of the CORE. -/
def State.placeBytes (s : State) (a : Word) : List Byte → State
  | [] => s
  | b :: bs => State.placeBytes { s with mem := s.mem.write a.toNat b } (a + 1) bs

end Sys2Proof.Machine
end

