-- ==== Sys2Proof/Machine/Step.lean ====
section
/-! DEFINITION. The step of the machine, and the placing of an instruction where it fetches next. -/

namespace Sys2Proof.Machine

/-- One step (R110, R129): one whole instruction, a fault entry, or none for a Faulted engine. -/
def step (s : State) : Host.Outcome State Fault Refusal := engineStep s

/-- The instruction of a table word, placed at PC; a Faulted engine is set Running, since it fetches nothing
(log entry 8). -/
def State.withFetchWord (s : State) (nbits w : Nat) : State :=
  { s.placeBytes s.pc (tableBytes nbits w) with run := .running }

end Sys2Proof.Machine
end

