-- ==== Sys2Proof/Machine/HostPort.lean ====
section
/-! DEFINITION. The host's run (40_engine_addressing.md R129, 60_exceptions.md R274, R275): reset, then steps while
the engine is Running, up to the host's own limit. Load, register and reset stand in Machine/Ops.lean. -/

namespace Sys2Proof.Machine

/-- Steps while the engine is Running, at most `limit` of them; the limit is the host's (R275, U10, U13). -/
def State.stepWhileRunning : Nat → State → State
  | 0, s => s
  | limit + 1, s =>
    match step s with
    | .next t => State.stepWhileRunning limit t
    | .fault _ => s
    | .refused _ => s

/-- `run`: reset, then step repeated (R129). -/
def State.hostRun (draw : ResetDraw) (limit : Nat) (s : State) : State :=
  State.stepWhileRunning limit (s.hostReset draw)

end Sys2Proof.Machine
end

