-- ==== Sys2Proof/Safety.lean ====
section
/-! DEFINITION. The terms in which claims are stated: what an instruction accesses and where it leaves PC, which
encodings a mnemonic has, when a step faults, what a truthful state is and what a safe run is. -/

namespace Sys2Proof

/-- The operand of a reading instruction as an operand. -/
def Source.operand : Source → Operand
  | .immediate v => .immediate v
  | .memory m => .memory m

/-- The operand of a shift as an operand. -/
def Target.operand : Target → Operand
  | .accumulator => .accumulator
  | .memory m => .memory m

/-- `M` (R113): the immediate byte, or the byte at the effective address. -/
def Source.value (src : Source) (s : Machine.State) : Byte :=
  match src with
  | .immediate v => v
  | .memory m => s.byteAt (m.ea s)

/-- The reads that resolve an effective address: the pointer's low byte, then its high byte (R58). -/
def MemOperand.pointerReads (m : MemOperand) (s : Machine.State) : List Machine.Access := (m.pointerCells s).map .onRead

/-- The reads that produce `M` after the operand fetch (R58). -/
def Source.reads (src : Source) (s : Machine.State) : List Machine.Access :=
  match src with
  | .immediate _ => []
  | .memory m => m.pointerReads s ++ [.onRead (m.ea s)]

/-- The target of a branch whose opcode is at PC (R127); the REL8 form is two bytes long. -/
def BranchArg.target (t : BranchArg) (s : Machine.State) : Word :=
  match t with
  | .abs16 w => w
  | .rel8 o => s.pc + 2 + sext16 o

/-- A mnemonic has exactly these opcode bytes, each in this mode (R84, and the Encoding line of each rule). -/
def HasEncodings (m : Mnemonic) (rows : List (Byte × Mode)) : Prop :=
  ∀ i : Instr, i.mnemonic = m ↔ (i.opcode, i.mode) ∈ rows

/-- R180 to R183: result `r` and carry out `c` of a shift of `v`, as the rules give them bit by bit. -/
def ShiftRule (mn : Mnemonic) (v : Byte) (carry : Bool) (r : Byte) (out : Bool) : Prop :=
  (mn = .asl ∧ out = bit v 7 ∧ r.toNat = v.toNat * 2 % 256) ∨
  (mn = .lsr ∧ out = bit v 0 ∧ r.toNat = v.toNat / 2) ∨
  (mn = .rol ∧ out = bit v 7 ∧ r.toNat = v.toNat * 2 % 256 + carry.toNat) ∨
  (mn = .ror ∧ out = bit v 0 ∧ r.toNat = v.toNat / 2 + 128 * carry.toNat)

/-- The 105 unassigned opcode bytes (R87). -/
def unassignedBytes : List Byte :=
  [0x02#8, 0x03#8, 0x04#8, 0x07#8, 0x0B#8, 0x0C#8, 0x0F#8, 0x12#8, 0x13#8, 0x14#8, 0x17#8, 0x1A#8, 0x1B#8, 0x1C#8, 0x1F#8] ++
  [0x22#8, 0x23#8, 0x27#8, 0x2B#8, 0x2F#8, 0x32#8, 0x33#8, 0x34#8, 0x37#8, 0x3A#8, 0x3B#8, 0x3C#8, 0x3F#8, 0x42#8, 0x43#8] ++
  [0x44#8, 0x47#8, 0x4B#8, 0x4F#8, 0x52#8, 0x53#8, 0x54#8, 0x57#8, 0x5A#8, 0x5B#8, 0x5C#8, 0x5F#8, 0x62#8, 0x63#8, 0x64#8] ++
  [0x67#8, 0x6B#8, 0x6F#8, 0x72#8, 0x73#8, 0x74#8, 0x77#8, 0x7A#8, 0x7B#8, 0x7C#8, 0x7F#8, 0x80#8, 0x82#8, 0x83#8, 0x87#8] ++
  [0x89#8, 0x8B#8, 0x8F#8, 0x92#8, 0x93#8, 0x97#8, 0x9B#8, 0x9C#8, 0x9E#8, 0x9F#8, 0xA3#8, 0xA7#8, 0xAB#8, 0xAF#8, 0xB2#8] ++
  [0xB3#8, 0xB7#8, 0xBB#8, 0xBF#8, 0xC2#8, 0xC3#8, 0xC7#8, 0xCB#8, 0xCF#8, 0xD2#8, 0xD3#8, 0xD4#8, 0xD7#8, 0xDA#8, 0xDB#8] ++
  [0xDC#8, 0xDF#8, 0xE2#8, 0xE3#8, 0xE7#8, 0xEB#8, 0xEF#8, 0xF2#8, 0xF3#8, 0xF4#8, 0xF7#8, 0xFA#8, 0xFB#8, 0xFC#8, 0xFF#8]

/-- The eight ADC and the eight SBC opcodes (R161). -/
def decimalOpcodes : List Byte :=
  [0x69#8, 0x65#8, 0x75#8, 0x6D#8, 0x7D#8, 0x79#8, 0x61#8, 0x71#8] ++
  [0xE9#8, 0xE5#8, 0xF5#8, 0xED#8, 0xFD#8, 0xF9#8, 0xE1#8, 0xF1#8]

namespace Machine

/-- The reads of the first `n` bytes at PC, ascending, addresses modulo 65,536 (R27, R58). -/
def State.fetchReads (s : State) (n : Nat) : List Access :=
  (List.range n).map (fun k => .onRead (s.pc + BitVec.ofNat 16 k))

/-- The trace after some accesses made in this order (R42, R53). -/
def State.observed (s : State) (accs : List Access) : List Event := s.trace ++ s.params.notificationsOf accs

/-- The state after instruction `i` has been fetched and has made these further accesses, with PC at the next
instruction and nothing else changed (R58, R114). -/
def State.past (s : State) (i : Instr) (accs : List Access) : State :=
  { s with pc := s.pc + BitVec.ofNat 16 i.size, trace := s.observed (s.fetchReads i.size ++ accs) }

/-- The fault a step of a Running engine raises, by the order of R263; none if it completes. -/
def State.faultOf (s : State) : Option FaultKind :=
  if s.byteAt s.pc ∈ unassignedBytes then some .decodeError
  else if s.byteAt s.pc ∈ decimalOpcodes ∧ s.p.d = true then some .unsupportedFeature
  else if s.byteAt s.pc = 0x6C#8 ∧ s.byteAt (s.pc + 1) = 0xFF#8 then some .unsupportedFeature
  else none

/-- A fault record tells the truth about the state it stands in (R41, R261): it names the byte at PC, and a step of
that state, were it Running, would raise that fault. -/
def State.recordTruthful (s : State) : Bool :=
  match s.run with
  | .running => true
  | .faulted kind addr opcode => (s.pc == addr) && (s.byteAt s.pc == opcode) && (s.faultOf == some kind)

/-- Every event of the trace is a notification to a registered observer whose range contains the address (R42, R53). -/
def State.traceTruthful (s : State) : Bool :=
  s.trace.all (fun e => s.params.observers.any (fun r => (r.observer == e.observer) && r.covers e.access.addr))

/-- The invariant of the machine: storage is in canonical form, the fault record and the trace are truthful. -/
def State.Inv (s : State) : Bool := s.mem.wf && s.recordTruthful && s.traceTruthful

/-- The state without what only observers see: the registrations and the trace (R54). -/
def State.unobserved (s : State) : State :=
  { s with trace := [], params := { s.params with observers := [] } }

/-- A run of `n` steps from `s` in which the engine is Running throughout (R275). -/
def State.safeFor : Nat → State → Prop
  | 0, s => s.run = .running
  | n + 1, s => s.run = .running ∧ ∃ t, step s = .next t ∧ State.safeFor n t

/-- The storage and PC of R301: every byte outside the stack page is zero, PC is 0x0000, the engine is Running. -/
def State.zeroLoop (s : State) : Prop :=
  s.run = .running ∧ s.pc = 0x0000#16 ∧ ∀ a : Word, region a ≠ .stackPage → s.byteAt a = 0x00#8

end Machine

end Sys2Proof
end

