-- ==== Sys2Proof/Certificates/Slice0/Obligations.lean ====
section
/-! DEFINITION. The statements for the provers, one def per obligation, listed in OBLIGATIONS.json. Each docstring
names the rules of spec/ it formalises. No statement rests on a reset value the model chose, but for
ResetStateHoldsTheNamedValues, which says so. -/

open Sys2Proof Sys2Proof.Machine

/-! ### Encoding -/

/-- Decoding the encoding of a well-formed instruction gives it back, and leaves the bytes after it (R80 to R84).
Rests on the spec's own decision D1. -/
def Obligations.DecodeOfEncodeIsTheInstruction : Prop :=
  ∀ (form : BranchOperand) (i : Instr) (rest : List Byte),
    i.wf form = true → decode form (encode i ++ rest) = .ok (i, rest)

/-- What the decoder reads is well-formed, and its encoding is exactly the bytes the decoder consumed (R80 to R84).
Rests on the spec's own decision D1. -/
def Obligations.EncodeOfDecodeIsTheBytes : Prop :=
  ∀ (form : BranchOperand) (bytes : List Byte) (i : Instr) (rest : List Byte),
    decode form bytes = .ok (i, rest) → i.wf form = true ∧ encode i ++ rest = bytes

/-- R97: two instructions have the same opcode byte exactly when they have the same mnemonic and mode, and the 151
rows have 151 distinct bytes, which are the opcode bytes of the instructions. Rests on the spec's own decision D1. R97
is marked derived. -/
def Obligations.OpcodeBytesPairWithMnemonicAndMode : Prop :=
  (∀ i j : Instr, i.opcode = j.opcode ↔ (i.mnemonic = j.mnemonic ∧ i.mode = j.mode)) ∧
  opcodeTable.length = 151 ∧ (opcodeTable.map Row.opcode).Nodup ∧
  ∀ opc : Byte, opc ∈ opcodeTable.map Row.opcode ↔ ∃ i : Instr, i.opcode = opc

/-- Words written out from the encodings of R81, R82 and R84, of every family, decode to what they stand for. Rests on
the spec's own decision D1. -/
def Obligations.WrittenOutWordsDecode : Prop :=
  decode .abs16 [0xA9#8, 0x2A#8] = .ok (.ldaImm 0x2A#8, []) ∧
  decode .abs16 [0x8D#8, 0x00#8, 0x60#8] = .ok (.staAbs 0x6000#16, []) ∧
  decode .abs16 [0xA1#8, 0xFE#8] = .ok (.ldaIndX 0xFE#8, []) ∧
  decode .abs16 [0xB6#8, 0xF0#8] = .ok (.ldxZpY 0xF0#8, []) ∧
  decode .abs16 [0x7D#8, 0xF0#8, 0x12#8] = .ok (.adcAbsX 0x12F0#16, []) ∧
  decode .abs16 [0xE4#8, 0x10#8] = .ok (.cpxZp 0x10#8, []) ∧
  decode .abs16 [0xCE#8, 0xFF#8, 0xFF#8] = .ok (.decAbs 0xFFFF#16, []) ∧
  decode .abs16 [0x8A#8] = .ok (.txa, []) ∧
  decode .abs16 [0x45#8, 0x80#8] = .ok (.eorZp 0x80#8, []) ∧
  decode .abs16 [0x6A#8, 0xFF#8] = .ok (.rorAcc, [0xFF#8]) ∧
  decode .abs16 [0x20#8, 0x00#8, 0x10#8] = .ok (.jsrAbs 0x1000#16, []) ∧
  decode .abs16 [0x00#8, 0x00#8] = .ok (.brk, [0x00#8]) ∧
  decode .abs16 [0x6C#8, 0x00#8, 0x03#8] = .ok (.jmpInd 0x0300#16, []) ∧
  decode .abs16 [0xD0#8, 0x05#8, 0x02#8] = .ok (.bne (.abs16 0x0205#16), []) ∧
  decode .rel8 [0xD0#8, 0xF8#8] = .ok (.bne (.rel8 0xF8#8), []) ∧
  decode .abs16 [0x28#8] = .ok (.plp, []) ∧
  decode .abs16 [0xD8#8] = .ok (.cld, [])

/-! ### The step -/

/-- R87: exactly the 105 listed bytes are no instruction's opcode, and fetching one of them raises DecodeError with
nothing else changed and the opcode fetch alone in the trace. Rests on the spec's own decisions D1, D13. -/
def Obligations.UnassignedByteRaisesDecodeError : Prop :=
  unassignedBytes.length = 105 ∧ unassignedBytes.Nodup ∧
  (∀ opc : Byte, opc ∈ unassignedBytes ↔ ¬ ∃ i : Instr, i.opcode = opc) ∧
  ∀ s : State, s.run = .running → s.byteAt s.pc ∈ unassignedBytes →
    step s = .next { s with
      run := .faulted .decodeError s.pc (s.byteAt s.pc), trace := s.observed [.onRead s.pc] }

/-- The step of a Running engine whose bytes at PC decode to an instruction is that instruction's execution; the step
adds nothing around it, since the meaning fetches the instruction's bytes and moves PC itself (R111, R113). That the
meaning fetches is log entry 4. -/
def Obligations.StepExecutesTheDecodedInstruction : Prop :=
  ∀ (s : State) (i : Instr) (rest : List Byte),
    s.run = .running → decode s.params.branchOperand (s.bytesFrom s.pc 3) = .ok (i, rest) → step s = exec i s

/-- The same from the encoding: where the storage at PC holds the bytes of a well-formed instruction, the step is that
instruction's execution (R81, R111, R113). That the meaning fetches is log entry 4. -/
def Obligations.StepExecutesTheBytesAtPc : Prop :=
  ∀ (s : State) (i : Instr),
    s.run = .running → i.wf s.params.branchOperand = true → s.bytesFrom s.pc i.size = encode i → step s = exec i s

/-- A Running engine always has a step, which completes the instruction or enters Faulted with a record of the byte at
PC; a Faulted engine has none (R110, R261). Rests on the spec's own decision D13. -/
def Obligations.RunningEngineAlwaysSteps : Prop :=
  (∀ s : State, s.run = .running → ∃ t, step s = .next t ∧
    (t.run = .running ∨ ∃ kind, t.run = .faulted kind s.pc (s.byteAt s.pc))) ∧
  ∀ (s : State) (kind : FaultKind) (addr : Word) (opc : Byte),
    s.run = .faulted kind addr opc → step s = .fault (.engineFaulted kind addr opc)

/-- R261 and R262: a step that faults leaves registers, flags, PC and storage as at its start; the record holds the kind,
the address a0 = PC and the opcode byte; the trace holds the opcode fetch, and for the JMP case the two operand
bytes too; the Faulted engine has no step, and reset leaves it Running. -/
def Obligations.FaultEntryIsPrecise : Prop :=
  ∀ s t : State, s.run = .running → step s = .next t → t.run ≠ .running →
    (∃ kind, t = { s with
      run := .faulted kind s.pc (s.byteAt s.pc)
      trace := s.observed (s.fetchReads (if s.byteAt s.pc = 0x6C#8 then 3 else 1)) }) ∧
    (∀ u, step t ≠ .next u) ∧ ∀ draw : ResetDraw, (t.hostReset draw).run = .running

/-- R260 and R263: which steps fault, with which record, in the order of the checks; no other condition faults. -/
def Obligations.StepFaultsInTheThreeCasesOnly : Prop :=
  (∀ s t : State, s.run = .running → step s = .next t →
    t.run = (if s.byteAt s.pc ∈ unassignedBytes then .faulted .decodeError s.pc (s.byteAt s.pc)
      else if s.byteAt s.pc ∈ decimalOpcodes ∧ s.p.d = true then .faulted .unsupportedFeature s.pc (s.byteAt s.pc)
      else if s.byteAt s.pc = 0x6C#8 ∧ s.byteAt (s.pc + 1) = 0xFF#8 then .faulted .unsupportedFeature s.pc 0x6C#8
      else .running)) ∧
  FaultKind.code .decodeError = 1 ∧ FaultKind.code .unsupportedFeature = 2

/-- R300: reset takes the draw for the open registers and flags, PC from the RESET vector, and is Running; storage is
left alone; the trace holds the two vector reads where they are observed. -/
def Obligations.ResetLoadsPcFromTheVector : Prop :=
  ∀ (draw : ResetDraw) (s : State),
    s.hostReset draw =
      { s with
        run := .running, a := draw.a, x := draw.x, y := draw.y, sp := draw.sp, p := draw.p
        pc := join (s.byteAt 0xFFFD#16) (s.byteAt 0xFFFC#16)
        trace := s.params.notificationsOf [.onRead 0xFFFC#16, .onRead 0xFFFD#16] }

/-- The state after reset with nothing loaded: the spec's values of PC, storage, run state and trace, and the MODEL'S
CHOICE (log entries 1 and 2) of zero for the free draw, ABS16 and no observer. -/
def Obligations.ResetStateHoldsTheNamedValues : Prop :=
  State.reset.pc = 0x0000#16 ∧ State.reset.run = .running ∧ State.reset.trace = [] ∧
  (∀ a : Word, State.reset.byteAt a = 0x00#8) ∧
  State.reset.a = 0x00#8 ∧ State.reset.x = 0x00#8 ∧ State.reset.y = 0x00#8 ∧ State.reset.sp = 0x00#8 ∧
  State.reset.p = { c := false, z := false, i := false, d := false, b := false, v := false, n := false } ∧
  State.reset.params = { branchOperand := .abs16, observers := [] } ∧
  State.reset = State.reset.hostReset ResetDraw.zero

/-- The invariant holds at reset: for every draw and every canonical storage, and so in the model's own reset state. -/
def Obligations.InvariantHoldsAtReset : Prop :=
  (∀ (draw : ResetDraw) (s : State), s.mem.wf = true → (s.hostReset draw).Inv = true) ∧ State.reset.Inv = true

/-- Every step keeps the invariant: canonical storage (R39), a truthful fault record (R41, R261) and a trace of
notifications to registered observers only (R42, R53). -/
def Obligations.StepKeepsTheInvariant : Prop :=
  ∀ s t : State, s.Inv = true → step s = .next t → t.Inv = true

/-- R54: observers change neither a byte read, nor storage, nor the register bank: two states that differ only in what
observers see step alike, and stay so. Rests on the spec's own decision D18. -/
def Obligations.ObserversNeverInfluenceTheMachine : Prop :=
  ∀ s s' : State, s.unobserved = s'.unobserved →
    (∀ t, step s = .next t → ∃ t', step s' = .next t' ∧ t.unobserved = t'.unobserved) ∧
    ∀ r, step s = .fault r → step s' = .fault r

/-- A step appends to the trace the notifications of a list of accesses that begins with the opcode fetch, and changes
no parameter (R42, R43, R53, R58). Rests on the spec's own decision D18. -/
def Obligations.StepOnlyAppendsNotifications : Prop :=
  ∀ s t : State, step s = .next t → t.params = s.params ∧
    ∃ accs : List Access, t.trace = s.trace ++ s.params.notificationsOf (.onRead s.pc :: accs)

/-- A loaded image is the storage: an address holds the image's byte, and zero past its end (R39, R274). A longer
image is cut: log entry 9. -/
def Obligations.LoadedImageReadsBack : Prop :=
  ∀ (image : List Byte) (s : State) (a : Word),
    (s.hostLoad image).byteAt a = (image[a.toNat]?).getD 0x00#8 ∧ (s.hostLoad image).mem.wf = true

/-- A run ends at the first Faulted state: a larger step limit changes nothing (R129, R261, R275). Rests on the spec's
own decision D17. -/
def Obligations.RunEndsAtTheFirstFault : Prop :=
  ∀ (draw : ResetDraw) (n m : Nat) (s : State),
    (s.hostRun draw n).run ≠ .running → s.hostRun draw (n + m) = s.hostRun draw n

/-- R301: with zero storage outside the stack page and PC at 0x0000 the step executes BRK, comes back to 0x0000 and
pushes three bytes, so the engine loops for ever, whatever the registers hold; an image of zeros starts there. Rests
on the spec's own decision D10. -/
def Obligations.ZeroStorageLoopsOnBrk : Prop :=
  (∀ s : State, s.mem.wf = true → s.zeroLoop →
    ∃ t, step s = .next t ∧ exec .brk s = .next t ∧ t.zeroLoop ∧ t.mem.wf = true ∧ t.sp = s.sp - 3) ∧
  (∀ (n : Nat) (s : State), s.mem.wf = true → s.zeroLoop → s.safeFor n) ∧
  ∀ (draw : ResetDraw) (s : State), ((s.hostLoad []).hostReset draw).zeroLoop

/-! ### Addressing -/

/-- R118 to R123, R125 and R126: the effective address of every mode, in integers; the operand bytes are fetched and
the pointer bytes are read low first, and nothing else changes. The state is the one after the opcode fetch; the first
clause says that the address is the `ea` of the other statements, taken at the start of the instruction. Rests on the
spec's own decisions D4, D5, D6. R120 is marked derived. -/
def Obligations.ResolverFollowsTheModes : Prop :=
  (∀ (m : MemOperand) (s : State), (m.resolve s.opcodeFetched).1 = m.ea s) ∧
  (∀ (nn : Byte) (s : State),
    ((MemOperand.zeroPage nn).resolve s).1.toNat = nn.toNat ∧
    ((MemOperand.zeroPageX nn).resolve s).1.toNat = (nn.toNat + s.x.toNat) % 256 ∧
    ((MemOperand.zeroPageY nn).resolve s).1.toNat = (nn.toNat + s.y.toNat) % 256) ∧
  (∀ (w : Word) (s : State),
    ((MemOperand.absolute w).resolve s).1 = w ∧
    ((MemOperand.absoluteX w).resolve s).1.toNat = (w.toNat + s.x.toNat) % 65536 ∧
    ((MemOperand.absoluteY w).resolve s).1.toNat = (w.toNat + s.y.toNat) % 65536) ∧
  (∀ (nn p q : Byte) (s : State), p.toNat = (nn.toNat + s.x.toNat) % 256 → q.toNat = (p.toNat + 1) % 256 →
    ((MemOperand.indirectX nn).resolve s).1.toNat = (s.byteAt (zext16 q)).toNat * 256 + (s.byteAt (zext16 p)).toNat ∧
    ((MemOperand.indirectX nn).resolve s).2 =
      { s with pc := s.pc + 1, trace := s.observed [.onRead s.pc, .onRead (zext16 p), .onRead (zext16 q)] }) ∧
  (∀ (nn q : Byte) (s : State), q.toNat = (nn.toNat + 1) % 256 →
    ((MemOperand.indirectY nn).resolve s).1.toNat =
      ((s.byteAt (zext16 q)).toNat * 256 + (s.byteAt (zext16 nn)).toNat + s.y.toNat) % 65536 ∧
    ((MemOperand.indirectY nn).resolve s).2 =
      { s with pc := s.pc + 1, trace := s.observed [.onRead s.pc, .onRead (zext16 nn), .onRead (zext16 q)] }) ∧
  ∀ (m : MemOperand) (s : State), m.mode ≠ .indirectX → m.mode ≠ .indirectY →
    (m.resolve s).2 =
      { s with pc := s.pc + BitVec.ofNat 16 m.width, trace := s.observed (s.fetchReads m.width) }

/-! ### Loads, stores, transfers -/

/-- R140, R141, R142: the register takes M, Z and N follow it, and nothing else changes but PC and the trace. -/
def Obligations.LoadsWriteTheirRegister : Prop :=
  HasEncodings .lda [(0xA9#8, .immediate), (0xA5#8, .zeroPage), (0xB5#8, .zeroPageX), (0xAD#8, .absolute),
    (0xBD#8, .absoluteX), (0xB9#8, .absoluteY), (0xA1#8, .indirectX), (0xB1#8, .indirectY)] ∧
  HasEncodings .ldx [(0xA2#8, .immediate), (0xA6#8, .zeroPage), (0xB6#8, .zeroPageY), (0xAE#8, .absolute),
    (0xBE#8, .absoluteY)] ∧
  HasEncodings .ldy [(0xA0#8, .immediate), (0xA4#8, .zeroPage), (0xB4#8, .zeroPageX), (0xAC#8, .absolute),
    (0xBC#8, .absoluteX)] ∧
  ∀ (i : Instr) (s : State),
    (i.mnemonic = .lda → ∃ src : Source, i.operand = src.operand ∧ exec i s = .next { s.past i (src.reads s) with
      a := src.value s, p := { s.p with z := src.value s == 0#8, n := bit (src.value s) 7 } }) ∧
    (i.mnemonic = .ldx → ∃ src : Source, i.operand = src.operand ∧ exec i s = .next { s.past i (src.reads s) with
      x := src.value s, p := { s.p with z := src.value s == 0#8, n := bit (src.value s) 7 } }) ∧
    (i.mnemonic = .ldy → ∃ src : Source, i.operand = src.operand ∧ exec i s = .next { s.past i (src.reads s) with
      y := src.value s, p := { s.p with z := src.value s == 0#8, n := bit (src.value s) 7 } })

/-- R143, R144, R145: the register's byte is written at the effective address, which is not read; every other
byte, every register and every flag stay. -/
def Obligations.StoresWriteOneByte : Prop :=
  HasEncodings .sta [(0x85#8, .zeroPage), (0x95#8, .zeroPageX), (0x8D#8, .absolute), (0x9D#8, .absoluteX),
    (0x99#8, .absoluteY), (0x81#8, .indirectX), (0x91#8, .indirectY)] ∧
  HasEncodings .stx [(0x86#8, .zeroPage), (0x96#8, .zeroPageY), (0x8E#8, .absolute)] ∧
  HasEncodings .sty [(0x84#8, .zeroPage), (0x94#8, .zeroPageX), (0x8C#8, .absolute)] ∧
  ∀ (i : Instr) (s : State) (v : Byte), s.mem.wf = true →
    ((i.mnemonic = .sta ∧ v = s.a) ∨ (i.mnemonic = .stx ∧ v = s.x) ∨ (i.mnemonic = .sty ∧ v = s.y)) →
    ∃ (m : MemOperand) (t : State), i.operand = .memory m ∧ exec i s = .next t ∧
      t = { s.past i (m.pointerReads s ++ [.onWrite (m.ea s) v]) with mem := t.mem } ∧
      ∀ b : Word, t.byteAt b = if b = m.ea s then v else s.byteAt b

/-- R146 to R149: TAX, TAY, TXA, TYA copy a register, with Z and N of the value. Rests on the spec's own decision D2. -/
def Obligations.TransfersCopyARegister : Prop :=
  HasEncodings .tax [(0xAA#8, .implied)] ∧ HasEncodings .tay [(0xA8#8, .implied)] ∧
  HasEncodings .txa [(0x8A#8, .implied)] ∧ HasEncodings .tya [(0x98#8, .implied)] ∧
  ∀ s : State,
    exec .tax s = .next { s.past .tax [] with x := s.a, p := { s.p with z := s.a == 0#8, n := bit s.a 7 } } ∧
    exec .tay s = .next { s.past .tay [] with y := s.a, p := { s.p with z := s.a == 0#8, n := bit s.a 7 } } ∧
    exec .txa s = .next { s.past .txa [] with a := s.x, p := { s.p with z := s.x == 0#8, n := bit s.x 7 } } ∧
    exec .tya s = .next { s.past .tya [] with a := s.y, p := { s.p with z := s.y == 0#8, n := bit s.y 7 } }

/-- R224, R225: TSX copies SP with Z and N, TXS writes SP and no flag. -/
def Obligations.StackPointerTransfers : Prop :=
  HasEncodings .tsx [(0xBA#8, .implied)] ∧ HasEncodings .txs [(0x9A#8, .implied)] ∧
  ∀ s : State,
    exec .tsx s = .next { s.past .tsx [] with x := s.sp, p := { s.p with z := s.sp == 0#8, n := bit s.sp 7 } } ∧
    exec .txs s = .next { s.past .txs [] with sp := s.x }

/-! ### Arithmetic -/

/-- R162: ADC with D = 0 writes A and C, V, Z, N from the unbounded sum; with D = 1 it faults. -/
def Obligations.AdcAddsWithCarry : Prop :=
  HasEncodings .adc [(0x69#8, .immediate), (0x65#8, .zeroPage), (0x75#8, .zeroPageX), (0x6D#8, .absolute),
    (0x7D#8, .absoluteX), (0x79#8, .absoluteY), (0x61#8, .indirectX), (0x71#8, .indirectY)] ∧
  ∀ (i : Instr) (s : State), i.mnemonic = .adc →
    (s.p.d = false → ∃ (src : Source) (r : Byte) (sum : Nat), i.operand = src.operand ∧
      sum = s.a.toNat + (src.value s).toNat + s.p.c.toNat ∧ r.toNat = sum % 256 ∧
      exec i s = .next { s.past i (src.reads s) with
        a := r
        p := { s.p with
          c := decide (255 < sum)
          v := (bit s.a 7 == bit (src.value s) 7) && (bit s.a 7 != bit r 7)
          z := r == 0#8, n := bit r 7 } }) ∧
    (s.p.d = true → exec i s = .next { s with
      run := .faulted .unsupportedFeature s.pc i.opcode, trace := s.observed [.onRead s.pc] })

/-- R163: SBC is ADC of the one's complement of M, flags included; with D = 1 it faults. -/
def Obligations.SbcAddsTheComplement : Prop :=
  HasEncodings .sbc [(0xE9#8, .immediate), (0xE5#8, .zeroPage), (0xF5#8, .zeroPageX), (0xED#8, .absolute),
    (0xFD#8, .absoluteX), (0xF9#8, .absoluteY), (0xE1#8, .indirectX), (0xF1#8, .indirectY)] ∧
  ∀ (i : Instr) (s : State), i.mnemonic = .sbc →
    (s.p.d = false → ∃ (src : Source) (m r : Byte) (sum : Nat), i.operand = src.operand ∧
      m.toNat = 255 - (src.value s).toNat ∧ sum = s.a.toNat + m.toNat + s.p.c.toNat ∧ r.toNat = sum % 256 ∧
      exec i s = .next { s.past i (src.reads s) with
        a := r
        p := { s.p with
          c := decide (255 < sum)
          v := (bit s.a 7 == bit m 7) && (bit s.a 7 != bit r 7)
          z := r == 0#8, n := bit r 7 } }) ∧
    (s.p.d = true → exec i s = .next { s with
      run := .faulted .unsupportedFeature s.pc i.opcode, trace := s.observed [.onRead s.pc] })

/-- V after ADC says that the signed sum leaves the range of a byte, and C that the unsigned one does (R160). R160 is
marked derived. -/
def Obligations.AdcOverflowIsSignedRange : Prop :=
  ∀ (i : Instr) (s t : State), i.mnemonic = .adc → s.p.d = false → exec i s = .next t →
    ∃ src : Source, i.operand = src.operand ∧
      (t.p.v = true ↔ s.a.toInt + (src.value s).toInt + (s.p.c.toNat : Int) < -128 ∨
        127 < s.a.toInt + (src.value s).toInt + (s.p.c.toNat : Int)) ∧
      t.a.toNat + 256 * t.p.c.toNat = s.a.toNat + (src.value s).toNat + s.p.c.toNat

/-- SBC is subtraction with C the complement of a borrow: C out is 1 exactly when A ≥ M + 1 - C (R163, corner cases).
That corner case is marked derived. -/
def Obligations.SbcIsSubtractionWithBorrow : Prop :=
  ∀ (i : Instr) (s t : State), i.mnemonic = .sbc → s.p.d = false → exec i s = .next t →
    ∃ src : Source, i.operand = src.operand ∧
      (t.p.c = true ↔ (src.value s).toNat + 1 - s.p.c.toNat ≤ s.a.toNat) ∧
      (t.a.toNat : Int) = (s.a.toNat : Int) - ((src.value s).toNat : Int) - (1 - (s.p.c.toNat : Int)) +
        256 * (1 - (t.p.c.toNat : Int))

/-- R161: with D = 1 the step on any of the eight ADC and eight SBC opcodes faults right after the opcode fetch with no
effect, while SED, PLP and RTI, which set D, do not fault. -/
def Obligations.DecimalArithmeticFaults : Prop :=
  decimalOpcodes.length = 16 ∧ decimalOpcodes.Nodup ∧
  (∀ i : Instr, i.opcode ∈ decimalOpcodes ↔ i.mnemonic = .adc ∨ i.mnemonic = .sbc) ∧
  (∀ s : State, s.run = .running → s.p.d = true → s.byteAt s.pc ∈ decimalOpcodes →
    step s = .next { s with
      run := .faulted .unsupportedFeature s.pc (s.byteAt s.pc), trace := s.observed [.onRead s.pc] }) ∧
  ∀ s : State, ∃ t u w, exec .sed s = .next t ∧ t.p.d = true ∧ t.run = s.run ∧
    exec .plp s = .next u ∧ u.run = s.run ∧ exec .rti s = .next w ∧ w.run = s.run

/-- R164, R165, R166: C, Z and N from comparing the register with M; the register, V, I, D and B stay. -/
def Obligations.ComparesSetCarryZeroNegative : Prop :=
  HasEncodings .cmp [(0xC9#8, .immediate), (0xC5#8, .zeroPage), (0xD5#8, .zeroPageX), (0xCD#8, .absolute),
    (0xDD#8, .absoluteX), (0xD9#8, .absoluteY), (0xC1#8, .indirectX), (0xD1#8, .indirectY)] ∧
  HasEncodings .cpx [(0xE0#8, .immediate), (0xE4#8, .zeroPage), (0xEC#8, .absolute)] ∧
  HasEncodings .cpy [(0xC0#8, .immediate), (0xC4#8, .zeroPage), (0xCC#8, .absolute)] ∧
  ∀ (i : Instr) (s : State) (r : Byte),
    ((i.mnemonic = .cmp ∧ r = s.a) ∨ (i.mnemonic = .cpx ∧ r = s.x) ∨ (i.mnemonic = .cpy ∧ r = s.y)) →
    ∃ (src : Source) (d : Byte), i.operand = src.operand ∧
      ((d.toNat : Int) = ((r.toNat : Int) - ((src.value s).toNat : Int)) % 256) ∧
      exec i s = .next { s.past i (src.reads s) with
        p := { s.p with c := decide ((src.value s).toNat ≤ r.toNat), z := r == src.value s, n := bit d 7 } }

/-- R167, R168: INC and DEC read the byte at the effective address once and write it back plus or minus one modulo 256,
with Z and N; every other byte, register and flag stays. -/
def Obligations.IncAndDecChangeOneByte : Prop :=
  HasEncodings .inc [(0xE6#8, .zeroPage), (0xF6#8, .zeroPageX), (0xEE#8, .absolute), (0xFE#8, .absoluteX)] ∧
  HasEncodings .dec [(0xC6#8, .zeroPage), (0xD6#8, .zeroPageX), (0xCE#8, .absolute), (0xDE#8, .absoluteX)] ∧
  ∀ (i : Instr) (s : State), s.mem.wf = true → (i.mnemonic = .inc ∨ i.mnemonic = .dec) →
    ∃ (m : MemOperand) (t : State) (r : Byte), i.operand = .memory m ∧ exec i s = .next t ∧
      r.toNat = ((s.byteAt (m.ea s)).toNat + (if i.mnemonic = .inc then 1 else 255)) % 256 ∧
      t = { s.past i (m.pointerReads s ++ [.onRead (m.ea s), .onWrite (m.ea s) r]) with
        mem := t.mem, p := { s.p with z := r == 0#8, n := bit r 7 } } ∧
      ∀ b : Word, t.byteAt b = if b = m.ea s then r else s.byteAt b

/-- R169 to R172: INX, INY, DEX, DEY change the register by one modulo 256, with Z and N. That the other flags stay is
marked derived in R169. -/
def Obligations.IndexRegistersCountModulo256 : Prop :=
  HasEncodings .inx [(0xE8#8, .implied)] ∧ HasEncodings .iny [(0xC8#8, .implied)] ∧
  HasEncodings .dex [(0xCA#8, .implied)] ∧ HasEncodings .dey [(0x88#8, .implied)] ∧
  ∀ s : State, ∃ x1 y1 x2 y2 : Byte,
    x1.toNat = (s.x.toNat + 1) % 256 ∧ y1.toNat = (s.y.toNat + 1) % 256 ∧
    x2.toNat = (s.x.toNat + 255) % 256 ∧ y2.toNat = (s.y.toNat + 255) % 256 ∧
    exec .inx s = .next { s.past .inx [] with x := x1, p := { s.p with z := x1 == 0#8, n := bit x1 7 } } ∧
    exec .iny s = .next { s.past .iny [] with y := y1, p := { s.p with z := y1 == 0#8, n := bit y1 7 } } ∧
    exec .dex s = .next { s.past .dex [] with x := x2, p := { s.p with z := x2 == 0#8, n := bit x2 7 } } ∧
    exec .dey s = .next { s.past .dey [] with y := y2, p := { s.p with z := y2 == 0#8, n := bit y2 7 } }

/-! ### Shifts and logic -/

/-- R180 to R183: the shifts on A and on a byte of memory, read once and written once: C takes the bit shifted out, Z and
N follow the result, and nothing else changes. -/
def Obligations.ShiftsMoveBitsThroughCarry : Prop :=
  HasEncodings .asl [(0x0A#8, .accumulator), (0x06#8, .zeroPage), (0x16#8, .zeroPageX), (0x0E#8, .absolute),
    (0x1E#8, .absoluteX)] ∧
  HasEncodings .lsr [(0x4A#8, .accumulator), (0x46#8, .zeroPage), (0x56#8, .zeroPageX), (0x4E#8, .absolute),
    (0x5E#8, .absoluteX)] ∧
  HasEncodings .rol [(0x2A#8, .accumulator), (0x26#8, .zeroPage), (0x36#8, .zeroPageX), (0x2E#8, .absolute),
    (0x3E#8, .absoluteX)] ∧
  HasEncodings .ror [(0x6A#8, .accumulator), (0x66#8, .zeroPage), (0x76#8, .zeroPageX), (0x6E#8, .absolute),
    (0x7E#8, .absoluteX)] ∧
  ∀ (i : Instr) (s : State), s.mem.wf = true →
    (i.mnemonic = .asl ∨ i.mnemonic = .lsr ∨ i.mnemonic = .rol ∨ i.mnemonic = .ror) →
    (i.operand = .accumulator ∧ ∃ r out, ShiftRule i.mnemonic s.a s.p.c r out ∧
      exec i s = .next { s.past i [] with
        a := r, p := { s.p with c := out, z := r == 0#8, n := bit r 7 } }) ∨
    (∃ (m : MemOperand) (r : Byte) (out : Bool) (t : State), i.operand = .memory m ∧
      ShiftRule i.mnemonic (s.byteAt (m.ea s)) s.p.c r out ∧
      exec i s = .next t ∧
      t = { s.past i (m.pointerReads s ++ [.onRead (m.ea s), .onWrite (m.ea s) r]) with
        mem := t.mem, p := { s.p with c := out, z := r == 0#8, n := bit r 7 } } ∧
      ∀ b : Word, t.byteAt b = if b = m.ea s then r else s.byteAt b)

/-- R184, R185, R186: A takes the bitwise combination with M, with Z and N only. -/
def Obligations.LogicCombinesWithA : Prop :=
  HasEncodings .and [(0x29#8, .immediate), (0x25#8, .zeroPage), (0x35#8, .zeroPageX), (0x2D#8, .absolute),
    (0x3D#8, .absoluteX), (0x39#8, .absoluteY), (0x21#8, .indirectX), (0x31#8, .indirectY)] ∧
  HasEncodings .ora [(0x09#8, .immediate), (0x05#8, .zeroPage), (0x15#8, .zeroPageX), (0x0D#8, .absolute),
    (0x1D#8, .absoluteX), (0x19#8, .absoluteY), (0x01#8, .indirectX), (0x11#8, .indirectY)] ∧
  HasEncodings .eor [(0x49#8, .immediate), (0x45#8, .zeroPage), (0x55#8, .zeroPageX), (0x4D#8, .absolute),
    (0x5D#8, .absoluteX), (0x59#8, .absoluteY), (0x41#8, .indirectX), (0x51#8, .indirectY)] ∧
  ∀ (i : Instr) (s : State), (i.mnemonic = .and ∨ i.mnemonic = .ora ∨ i.mnemonic = .eor) →
    ∃ (src : Source) (r : Byte), i.operand = src.operand ∧
      (∀ k, k < 8 → bit r k =
        (if i.mnemonic = .and then bit s.a k && bit (src.value s) k
         else if i.mnemonic = .ora then bit s.a k || bit (src.value s) k
         else bit s.a k != bit (src.value s) k)) ∧
      exec i s = .next { s.past i (src.reads s) with a := r, p := { s.p with z := r == 0#8, n := bit r 7 } }

/-- R187: BIT takes Z from A & M, V and N from bits 6 and 7 of M, and changes nothing else. -/
def Obligations.BitTestsTheMemoryByte : Prop :=
  HasEncodings .bit [(0x24#8, .zeroPage), (0x2C#8, .absolute)] ∧
  ∀ (i : Instr) (s : State), i.mnemonic = .bit → ∃ m : MemOperand, i.operand = .memory m ∧
    exec i s = .next { s.past i (m.pointerReads s ++ [.onRead (m.ea s)]) with
      p := { s.p with
        z := (s.a &&& s.byteAt (m.ea s)) == 0#8, v := bit (s.byteAt (m.ea s)) 6, n := bit (s.byteAt (m.ea s)) 7 } }

/-! ### Control transfer -/

/-- R200 to R208: each branch tests its flag and polarity; taken, PC is the operand's address (R127), else the next
instruction; nothing else changes. On a machine of the other branch form the operand's own form is followed, which is
the model's choice (log entry 10). Rests on the spec's own decision D3. Flag and polarity are marked as general
knowledge. -/
def Obligations.BranchesFollowTheirFlag : Prop :=
  HasEncodings .bcc [(0x90#8, .relative)] ∧ HasEncodings .bcs [(0xB0#8, .relative)] ∧
  HasEncodings .beq [(0xF0#8, .relative)] ∧ HasEncodings .bmi [(0x30#8, .relative)] ∧
  HasEncodings .bne [(0xD0#8, .relative)] ∧ HasEncodings .bpl [(0x10#8, .relative)] ∧
  HasEncodings .bvc [(0x50#8, .relative)] ∧ HasEncodings .bvs [(0x70#8, .relative)] ∧
  ∀ (i : Instr) (s : State) (cond : Bool),
    ((i.mnemonic = .bcc ∧ cond = !s.p.c) ∨ (i.mnemonic = .bcs ∧ cond = s.p.c) ∨
     (i.mnemonic = .beq ∧ cond = s.p.z) ∨ (i.mnemonic = .bmi ∧ cond = s.p.n) ∨
     (i.mnemonic = .bne ∧ cond = !s.p.z) ∨ (i.mnemonic = .bpl ∧ cond = !s.p.n) ∨
     (i.mnemonic = .bvc ∧ cond = !s.p.v) ∨ (i.mnemonic = .bvs ∧ cond = s.p.v)) →
    ∃ t : BranchArg, i.operand = .relative t ∧
      exec i s = .next (if cond then { s.past i [] with pc := t.target s } else s.past i [])

/-- R127: the target of a branch is the absolute operand, or the address after the two-byte instruction plus the
signed offset modulo 65,536; the resolver fetches the operand bytes. The state is the one after the opcode fetch. That
a form BRANCH_OPERAND does not select is resolved by the operand's own form is the model's choice (log entry 10).
Rests on the spec's own decision D3. -/
def Obligations.BranchTargetsInBothForms : Prop :=
  ∀ s : State,
    (∀ w : Word, (BranchArg.abs16 w).resolve s =
      (w, { s with pc := s.pc + 2, trace := s.observed [.onRead s.pc, .onRead (s.pc + 1)] })) ∧
    ∀ o : Byte, (((BranchArg.rel8 o).resolve s).1.toNat : Int) = ((s.pc.toNat : Int) + 1 + o.toInt) % 65536 ∧
      ((BranchArg.rel8 o).resolve s).2 = { s with pc := s.pc + 1, trace := s.observed [.onRead s.pc] }

/-- R209, R124: JMP absolute; JMP indirect through the little-endian word at its pointer; the pointer whose low byte is
0xFF faults after the operand bytes, before the pointer is read. -/
def Obligations.JumpsAbsoluteAndIndirect : Prop :=
  HasEncodings .jmp [(0x4C#8, .absolute), (0x6C#8, .indirect)] ∧
  ∀ (w : Word) (s : State),
    exec (.jmpAbs w) s = .next { s.past (.jmpAbs w) [] with pc := w } ∧
    (w.toNat % 256 ≠ 255 →
      exec (.jmpInd w) s = .next { s.past (.jmpInd w) [.onRead w, .onRead (w + 1)] with
        pc := join (s.byteAt (w + 1)) (s.byteAt w) }) ∧
    (w.toNat % 256 = 255 →
      exec (.jmpInd w) s = .next { s with
        run := .faulted .unsupportedFeature s.pc 0x6C#8, trace := s.observed (s.fetchReads 3) })

/-- R210: JSR pushes the address of its own last byte, high byte first, and jumps; SP goes down by two modulo 256;
every other byte, register and flag stays. Rests on the spec's own decision D9. That the address is a0 + 2 is marked
derived in R210. -/
def Obligations.JsrPushesTheReturnAddress : Prop :=
  HasEncodings .jsr [(0x20#8, .absolute)] ∧
  ∀ (w : Word) (s : State), s.mem.wf = true → ∃ t, exec (.jsrAbs w) s = .next t ∧
    t = { s.past (.jsrAbs w) [.onWrite (stackAddr s.sp) (hi (s.pc + 2)), .onWrite (stackAddr (s.sp - 1)) (lo (s.pc + 2))] with
      mem := t.mem, sp := s.sp - 2, pc := w } ∧
    ∀ b : Word, t.byteAt b =
      if b = stackAddr s.sp then hi (s.pc + 2)
      else if b = stackAddr (s.sp - 1) then lo (s.pc + 2) else s.byteAt b

/-- R211: RTS pulls an address, low byte first, and continues one past it. -/
def Obligations.RtsPullsTheReturnAddress : Prop :=
  HasEncodings .rts [(0x60#8, .implied)] ∧
  ∀ s : State, exec .rts s = .next { s.past .rts [.onRead (stackAddr (s.sp + 1)), .onRead (stackAddr (s.sp + 2))] with
    sp := s.sp + 2, pc := join (s.byteAt (stackAddr (s.sp + 2))) (s.byteAt (stackAddr (s.sp + 1))) + 1 }

/-- `JSR target` then `RTS` at the target resumes at the instruction after the JSR, with SP as before (R210, R211). -/
def Obligations.JsrThenRtsResumesAfterTheCall : Prop :=
  ∀ (w : Word) (s : State), s.mem.wf = true → ∃ t u, exec (.jsrAbs w) s = .next t ∧ t.pc = w ∧
    exec .rts t = .next u ∧ u.pc = s.pc + 3 ∧ u.sp = s.sp ∧ u.a = s.a ∧ u.x = s.x ∧ u.y = s.y ∧ u.p = s.p

/-- R212, R265: BRK pushes the packed status with B as it was, then a0 + 2 high byte first, takes PC from the BRK
vector and sets B; the other flags, A, X, Y and every other byte stay. Rests on the spec's own decision D10. -/
def Obligations.BrkEntersThroughTheVector : Prop :=
  HasEncodings .brk [(0x00#8, .implied)] ∧
  ∀ s : State, s.mem.wf = true → ∃ t, exec .brk s = .next t ∧
    t = { s.past .brk [.onWrite (stackAddr s.sp) s.p.pack, .onWrite (stackAddr (s.sp - 1)) (hi (s.pc + 2)),
        .onWrite (stackAddr (s.sp - 2)) (lo (s.pc + 2)), .onRead 0xFFFE#16, .onRead 0xFFFF#16] with
      mem := t.mem, sp := s.sp - 3, pc := join (s.byteAt 0xFFFF#16) (s.byteAt 0xFFFE#16), p := { s.p with b := true } } ∧
    ∀ b : Word, t.byteAt b =
      if b = stackAddr s.sp then s.p.pack
      else if b = stackAddr (s.sp - 1) then hi (s.pc + 2)
      else if b = stackAddr (s.sp - 2) then lo (s.pc + 2) else s.byteAt b

/-- R213: RTI pulls the return address, low byte first and with no increment, then all seven flags. The pop order is
marked derived in R213. -/
def Obligations.RtiRestoresAddressAndFlags : Prop :=
  HasEncodings .rti [(0x40#8, .implied)] ∧
  ∀ (s : State) (f : Byte), f = s.byteAt (stackAddr (s.sp + 3)) →
    exec .rti s = .next { s.past .rti [.onRead (stackAddr (s.sp + 1)), .onRead (stackAddr (s.sp + 2)),
        .onRead (stackAddr (s.sp + 3))] with
      sp := s.sp + 3, pc := join (s.byteAt (stackAddr (s.sp + 2))) (s.byteAt (stackAddr (s.sp + 1)))
      p := { n := bit f 0, v := bit f 1, b := bit f 2, d := bit f 3, i := bit f 4, z := bit f 5, c := bit f 6 } }

/-- BRK then RTI comes back to a0 + 2 with SP, A, X, Y and all seven flags, B included, as before the BRK (R212,
R213). Rests on the spec's own decision D10. -/
def Obligations.BrkThenRtiRestoresTheMachine : Prop :=
  ∀ s : State, s.mem.wf = true → ∃ t u, exec .brk s = .next t ∧ exec .rti t = .next u ∧
    u.pc = s.pc + 2 ∧ u.sp = s.sp ∧ u.p = s.p ∧ u.a = s.a ∧ u.x = s.x ∧ u.y = s.y ∧ u.run = s.run

/-! ### Stack and flags -/

/-- R220, R221: PHA pushes A and PHP the packed status; no flag is written; every other byte and register stays. -/
def Obligations.PushesWriteTheStackPage : Prop :=
  HasEncodings .pha [(0x48#8, .implied)] ∧ HasEncodings .php [(0x08#8, .implied)] ∧
  ∀ (i : Instr) (s : State) (v : Byte), s.mem.wf = true →
    ((i.mnemonic = .pha ∧ v = s.a) ∨ (i.mnemonic = .php ∧ v = s.p.pack)) →
    ∃ t, exec i s = .next t ∧
      t = { s.past i [.onWrite (stackAddr s.sp) v] with mem := t.mem, sp := s.sp - 1 } ∧
      ∀ b : Word, t.byteAt b = if b = stackAddr s.sp then v else s.byteAt b

/-- R222, R223: PLA pulls A with Z and N; PLP pulls all seven flags. -/
def Obligations.PullsReadTheStackPage : Prop :=
  HasEncodings .pla [(0x68#8, .implied)] ∧ HasEncodings .plp [(0x28#8, .implied)] ∧
  ∀ (s : State) (v : Byte), v = s.byteAt (stackAddr (s.sp + 1)) →
    exec .pla s = .next { s.past .pla [.onRead (stackAddr (s.sp + 1))] with
      sp := s.sp + 1, a := v, p := { s.p with z := v == 0#8, n := bit v 7 } } ∧
    exec .plp s = .next { s.past .plp [.onRead (stackAddr (s.sp + 1))] with
      sp := s.sp + 1
      p := { n := bit v 0, v := bit v 1, b := bit v 2, d := bit v 3, i := bit v 4, z := bit v 5, c := bit v 6 } }

/-- PHA then PLA restores A and leaves SP unchanged, and PHP then PLP restores all seven flags (R26, R30). -/
def Obligations.PushThenPullRestores : Prop :=
  ∀ s : State, s.mem.wf = true →
    (∃ t u, exec .pha s = .next t ∧ exec .pla t = .next u ∧ u.a = s.a ∧ u.sp = s.sp ∧
      u.p = { s.p with z := s.a == 0#8, n := bit s.a 7 }) ∧
    ∃ t u, exec .php s = .next t ∧ exec .plp t = .next u ∧ u.p = s.p ∧ u.sp = s.sp ∧ u.a = s.a

/-- R29, R30: the place of each flag in the packed byte, bit 7 zero, and unpacking as its inverse that ignores bit 7. -/
def Obligations.PackedStatusLayout : Prop :=
  (∀ p : Status, bit p.pack 7 = false ∧ bit p.pack 6 = p.c ∧ bit p.pack 5 = p.z ∧ bit p.pack 4 = p.i ∧
    bit p.pack 3 = p.d ∧ bit p.pack 2 = p.b ∧ bit p.pack 1 = p.v ∧ bit p.pack 0 = p.n ∧ Status.unpack p.pack = p) ∧
  ∀ f : Byte, Status.unpack f =
      { n := bit f 0, v := bit f 1, b := bit f 2, d := bit f 3, i := bit f 4, z := bit f 5, c := bit f 6 } ∧
    (Status.unpack f).pack.toNat = f.toNat % 128

/-- The stack address of SP is 0x0100 | SP, so a push or a pull stays in the stack page, and no instruction that pushes
writes a byte outside it (R24, R25). -/
def Obligations.PushesStayInTheStackPage : Prop :=
  (∀ sp : Byte, (stackAddr sp).toNat = 256 + sp.toNat ∧ region (stackAddr sp) = .stackPage) ∧
  ∀ (i : Instr) (s t : State), s.mem.wf = true →
    (i.mnemonic = .pha ∨ i.mnemonic = .php ∨ i.mnemonic = .jsr ∨ i.mnemonic = .brk) → exec i s = .next t →
    ∀ b : Word, region b ≠ .stackPage → t.byteAt b = s.byteAt b

/-- R240 to R246: each flag instruction writes its flag and nothing else. Rests on the spec's own decision D2. -/
def Obligations.FlagInstructionsWriteOneFlag : Prop :=
  HasEncodings .clc [(0x18#8, .implied)] ∧ HasEncodings .sec [(0x38#8, .implied)] ∧
  HasEncodings .cli [(0x58#8, .implied)] ∧ HasEncodings .sei [(0x78#8, .implied)] ∧
  HasEncodings .cld [(0xD8#8, .implied)] ∧ HasEncodings .sed [(0xF8#8, .implied)] ∧ HasEncodings .clv [(0xB8#8, .implied)] ∧
  ∀ s : State,
    exec .clc s = .next { s.past .clc [] with p := { s.p with c := false } } ∧
    exec .sec s = .next { s.past .sec [] with p := { s.p with c := true } } ∧
    exec .cli s = .next { s.past .cli [] with p := { s.p with i := false } } ∧
    exec .sei s = .next { s.past .sei [] with p := { s.p with i := true } } ∧
    exec .cld s = .next { s.past .cld [] with p := { s.p with d := false } } ∧
    exec .sed s = .next { s.past .sed [] with p := { s.p with d := true } } ∧
    exec .clv s = .next { s.past .clv [] with p := { s.p with v := false } }

/-- R247: NOP moves PC past itself and changes nothing else. Rests on the spec's own decision D2. -/
def Obligations.NopOnlyAdvances : Prop :=
  HasEncodings .nop [(0xEA#8, .implied)] ∧ ∀ s : State, exec .nop s = .next (s.past .nop [])

/-! ### Whole-machine rules -/

/-- Each flag is changed only by the instructions named for it (R28, R32 to R38). -/
def Obligations.FlagsHaveNamedWriters : Prop :=
  ∀ (i : Instr) (s t : State), exec i s = .next t →
    (t.p.c ≠ s.p.c → i.mnemonic ∈ [.adc, .sbc, .cmp, .cpx, .cpy, .asl, .lsr, .rol, .ror, .clc, .sec, .plp, .rti]) ∧
    (t.p.z ≠ s.p.z ∨ t.p.n ≠ s.p.n → i.mnemonic ∈
      [.lda, .ldx, .ldy, .tax, .tay, .txa, .tya, .tsx, .pla, .adc, .sbc, .and, .ora, .eor, .inc, .dec, .inx, .iny, .dex,
       .dey, .asl, .lsr, .rol, .ror, .cmp, .cpx, .cpy, .bit, .plp, .rti]) ∧
    (t.p.i ≠ s.p.i → i.mnemonic ∈ [.cli, .sei, .plp, .rti]) ∧
    (t.p.d ≠ s.p.d → i.mnemonic ∈ [.cld, .sed, .plp, .rti]) ∧
    (t.p.b ≠ s.p.b → i.mnemonic ∈ [.brk, .plp, .rti]) ∧
    (t.p.v ≠ s.p.v → i.mnemonic ∈ [.adc, .sbc, .bit, .clv, .plp, .rti])

/-- A, X, Y and SP are changed only by the instructions named for each (R21 to R24). -/
def Obligations.RegistersHaveNamedWriters : Prop :=
  ∀ (i : Instr) (s t : State), exec i s = .next t →
    (t.a ≠ s.a → i.mnemonic ∈ [.lda, .pla, .txa, .tya, .adc, .sbc, .and, .ora, .eor] ∨
      (i.mnemonic ∈ [.asl, .lsr, .rol, .ror] ∧ i.mode = .accumulator)) ∧
    (t.x ≠ s.x → i.mnemonic ∈ [.ldx, .tax, .tsx, .inx, .dex]) ∧
    (t.y ≠ s.y → i.mnemonic ∈ [.ldy, .tay, .iny, .dey]) ∧
    (t.sp ≠ s.sp → i.mnemonic ∈ [.txs, .pha, .php, .pla, .plp, .jsr, .rts, .brk, .rti])

/-- Storage is changed only by stores, read-modify-writes on memory and pushes (R57, R59, R130); the accumulator forms
of the shifts change no storage; a store or a read-modify-write changes it only at its effective address. Rests on the
spec's own decision D14. -/
def Obligations.StorageHasNamedWriters : Prop :=
  ∀ (i : Instr) (s t : State), s.mem.wf = true → exec i s = .next t →
    (t.mem ≠ s.mem → i.mnemonic ∈ [.sta, .stx, .sty, .inc, .dec, .pha, .php, .jsr, .brk] ∨
      (i.mnemonic ∈ [.asl, .lsr, .rol, .ror] ∧ i.mode ≠ .accumulator)) ∧
    ∀ (m : MemOperand) (b : Word), i.operand = .memory m → i.mnemonic ≠ .jsr →
      b ≠ m.ea s → t.byteAt b = s.byteAt b

/-- R114: the encoding has as many bytes as the size says, and after every instruction that completes and transfers no
control PC is a0 plus its size modulo 65,536. R114 is marked derived. -/
def Obligations.PcAdvancesByTheWidth : Prop :=
  (∀ i : Instr, (encode i).length = i.size) ∧
  ∀ (i : Instr) (s t : State), s.run = .running → exec i s = .next t → t.run = .running →
    i.mnemonic ∉ [.bcc, .bcs, .beq, .bmi, .bne, .bpl, .bvc, .bvs, .jmp, .jsr, .rts, .brk, .rti] →
    t.pc.toNat = (s.pc.toNat + i.size) % 65536

/-- A byte that a store instruction of any form writes where the next instruction stands is the opcode byte the next
step fetches (R66): an unassigned byte is a DecodeError there, and an assigned one begins the instruction the next
step executes. R66 is marked derived. -/
def Obligations.StoreIsSeenByTheNextFetch : Prop :=
  ∀ (i : Instr) (s : State) (m : MemOperand) (v : Byte), s.mem.wf = true → s.run = .running →
    ((i.mnemonic = .sta ∧ v = s.a) ∨ (i.mnemonic = .stx ∧ v = s.x) ∨ (i.mnemonic = .sty ∧ v = s.y)) →
    i.operand = .memory m → m.ea s = s.pc + BitVec.ofNat 16 i.size →
    ∃ t, exec i s = .next t ∧ t.run = .running ∧ t.pc = s.pc + BitVec.ofNat 16 i.size ∧ t.byteAt t.pc = v ∧
      (v ∈ unassignedBytes → step t = .next { t with
        run := .faulted .decodeError t.pc v, trace := t.observed [.onRead t.pc] }) ∧
      (v ∉ unassignedBytes → ∃ j : Instr, j.opcode = v ∧ j.wf t.params.branchOperand = true ∧
        t.bytesFrom t.pc j.size = encode j ∧ step t = exec j t)

/-- One access delivers one event for each registration whose range contains its address, in registration order, and
none for the others (R53); several accesses deliver in their order, and a read or a write of storage appends what its
access delivers to the trace (R42). A range holds an address when one of its intervals does, ends included (log entry
6). That an observer named by two such registrations receives two events is the model's choice (log entry 5). Rests on
the spec's own decision D18. -/
def Obligations.EachRegistrationIsNotifiedInOrder : Prop :=
  (∀ (form : BranchOperand) (a : Word) (acc : Access), (acc = .onRead a ∨ ∃ v, acc = .onWrite a v) →
    Params.notificationsOf { branchOperand := form, observers := [] } [acc] = [] ∧
    ∀ (r : Registration) (rs : List Registration),
      Params.notificationsOf { branchOperand := form, observers := r :: rs } [acc] =
        (if ∃ iv ∈ r.range, iv.first.toNat ≤ a.toNat ∧ a.toNat ≤ iv.last.toNat
          then [{ observer := r.observer, access := acc }] else []) ++
        Params.notificationsOf { branchOperand := form, observers := rs } [acc]) ∧
  (∀ ps : Params, ps.notificationsOf [] = [] ∧ ∀ (acc : Access) (accs : List Access),
    ps.notificationsOf (acc :: accs) = ps.notificationsOf [acc] ++ ps.notificationsOf accs) ∧
  ∀ (s : State) (a : Word) (v : Byte),
    s.readByte a = (s.byteAt a, { s with trace := s.trace ++ s.params.notificationsOf [.onRead a] }) ∧
    (s.writeByte a v).trace = s.trace ++ s.params.notificationsOf [.onWrite a v]
end

