-- ==== Sys2Proof/Laws/Encoding.lean ====
section
/-! SUPPORT. The opcode map as rows of mnemonic, opcode byte and mode, and the one lemma by which a claim about the
encodings of a mnemonic is a check of those 151 rows; what the rows say of the instructions they make. -/

namespace Sys2Proof

/-- An instruction of an entry, with zero operand bytes. -/
def Shape.sample : Shape → Instr
  | .none i => i
  | .byte make => make 0#8
  | .word make => make 0#16
  | .branch make => make (.abs16 0#16)

/-- The opcode map as triples. -/
def opcodeTriples : List (Mnemonic × Byte × Mode) :=
  opcodeTable.map (fun r => (r.shape.sample.mnemonic, r.opcode, r.shape.sample.mode))

/-- The place of an instruction's row in the opcode map. -/
def Instr.rowIndex : Instr → Nat
  | .ldaImm _ => 97
  | .ldaZp _ => 94
  | .ldaZpX _ => 105
  | .ldaAbs _ => 100
  | .ldaAbsX _ => 111
  | .ldaAbsY _ => 108
  | .ldaIndX _ => 91
  | .ldaIndY _ => 103
  | .ldxImm _ => 92
  | .ldxZp _ => 95
  | .ldxZpY _ => 106
  | .ldxAbs _ => 101
  | .ldxAbsY _ => 112
  | .ldyImm _ => 90
  | .ldyZp _ => 93
  | .ldyZpX _ => 104
  | .ldyAbs _ => 99
  | .ldyAbsX _ => 110
  | .staZp _ => 74
  | .staZpX _ => 84
  | .staAbs _ => 79
  | .staAbsX _ => 89
  | .staAbsY _ => 87
  | .staIndX _ => 72
  | .staIndY _ => 82
  | .stxZp _ => 75
  | .stxZpY _ => 85
  | .stxAbs _ => 80
  | .styZp _ => 73
  | .styZpX _ => 83
  | .styAbs _ => 78
  | .tax => 98
  | .tay => 96
  | .txa => 77
  | .tya => 86
  | .adcImm _ => 59
  | .adcZp _ => 56
  | .adcZpX _ => 66
  | .adcAbs _ => 62
  | .adcAbsX _ => 70
  | .adcAbsY _ => 69
  | .adcIndX _ => 55
  | .adcIndY _ => 65
  | .sbcImm _ => 138
  | .sbcZp _ => 135
  | .sbcZpX _ => 145
  | .sbcAbs _ => 141
  | .sbcAbsX _ => 149
  | .sbcAbsY _ => 148
  | .sbcIndX _ => 133
  | .sbcIndY _ => 144
  | .cmpImm _ => 119
  | .cmpZp _ => 116
  | .cmpZpX _ => 126
  | .cmpAbs _ => 122
  | .cmpAbsX _ => 130
  | .cmpAbsY _ => 129
  | .cmpIndX _ => 114
  | .cmpIndY _ => 125
  | .cpxImm _ => 132
  | .cpxZp _ => 134
  | .cpxAbs _ => 140
  | .cpyImm _ => 113
  | .cpyZp _ => 115
  | .cpyAbs _ => 121
  | .incZp _ => 136
  | .incZpX _ => 146
  | .incAbs _ => 142
  | .incAbsX _ => 150
  | .decZp _ => 117
  | .decZpX _ => 127
  | .decAbs _ => 123
  | .decAbsX _ => 131
  | .inx => 137
  | .iny => 118
  | .dex => 120
  | .dey => 76
  | .aslAcc => 6
  | .aslZp _ => 3
  | .aslZpX _ => 12
  | .aslAbs _ => 8
  | .aslAbsX _ => 16
  | .lsrAcc => 42
  | .lsrZp _ => 39
  | .lsrZpX _ => 49
  | .lsrAbs _ => 45
  | .lsrAbsX _ => 53
  | .rolAcc => 24
  | .rolZp _ => 21
  | .rolZpX _ => 31
  | .rolAbs _ => 27
  | .rolAbsX _ => 35
  | .rorAcc => 60
  | .rorZp _ => 57
  | .rorZpX _ => 67
  | .rorAbs _ => 63
  | .rorAbsX _ => 71
  | .andImm _ => 23
  | .andZp _ => 20
  | .andZpX _ => 30
  | .andAbs _ => 26
  | .andAbsX _ => 34
  | .andAbsY _ => 33
  | .andIndX _ => 18
  | .andIndY _ => 29
  | .oraImm _ => 5
  | .oraZp _ => 2
  | .oraZpX _ => 11
  | .oraAbs _ => 7
  | .oraAbsX _ => 15
  | .oraAbsY _ => 14
  | .oraIndX _ => 1
  | .oraIndY _ => 10
  | .eorImm _ => 41
  | .eorZp _ => 38
  | .eorZpX _ => 48
  | .eorAbs _ => 44
  | .eorAbsX _ => 52
  | .eorAbsY _ => 51
  | .eorIndX _ => 37
  | .eorIndY _ => 47
  | .bitZp _ => 19
  | .bitAbs _ => 25
  | .bcc _ => 81
  | .bcs _ => 102
  | .beq _ => 143
  | .bmi _ => 28
  | .bne _ => 124
  | .bpl _ => 9
  | .bvc _ => 46
  | .bvs _ => 64
  | .jmpAbs _ => 43
  | .jmpInd _ => 61
  | .jsrAbs _ => 17
  | .rts => 54
  | .brk => 0
  | .rti => 36
  | .pha => 40
  | .php => 4
  | .pla => 58
  | .plp => 22
  | .tsx => 109
  | .txs => 88
  | .clc => 13
  | .sec => 32
  | .cli => 50
  | .sei => 68
  | .cld => 128
  | .sed => 147
  | .clv => 107
  | .nop => 139

/-- Every instruction's mnemonic, opcode byte and mode are a row of the map. -/
theorem triple_mem (i : Instr) : (i.mnemonic, i.opcode, i.mode) ∈ opcodeTriples :=
  List.mem_of_getElem? (i := i.rowIndex) (by cases i <;> rfl)

/-- A claim about a mnemonic's encodings follows from the rows of the map. -/
theorem hasEncodings_of_rows {m : Mnemonic} {rows : List (Byte × Mode)}
    (h : opcodeTriples.all (fun r => (r.1 == m) == rows.contains r.2) = true) : HasEncodings m rows := by
  intro i
  have := List.all_eq_true.mp h _ (triple_mem i)
  simp only [beq_iff_eq] at this
  rw [← List.contains_iff_mem, ← this]
  exact beq_iff_eq.symm

/-! ### What the rows say of the instructions they make -/

/-- What a row of the map says of the instructions it makes: their opcode byte, their operand bytes, and that they are
well-formed, a branch when its operand fits the branch form. -/
def Row.Sound (r : Row) : Prop :=
  match r.shape with
  | .none i => i.opcode = r.opcode ∧ i.operand.bytes = [] ∧ ∀ form, i.wf form = true
  | .byte make => ∀ v, (make v).opcode = r.opcode ∧ (make v).operand.bytes = [v] ∧ ∀ form, (make v).wf form = true
  | .word make => ∀ w, (make w).opcode = r.opcode ∧ (make w).operand.bytes = wordBytes w ∧ ∀ form, (make w).wf form = true
  | .branch make => ∀ t, (make t).opcode = r.opcode ∧ (make t).operand.bytes = t.bytes ∧ ∀ form, (make t).wf form = t.fits form

theorem sound_opcodeRows0 : List.Forall Row.Sound opcodeRows0 :=
  ⟨⟨rfl, rfl, fun _ => rfl⟩,
   fun _ => ⟨rfl, rfl, fun _ => rfl⟩,
   fun _ => ⟨rfl, rfl, fun _ => rfl⟩,
   fun _ => ⟨rfl, rfl, fun _ => rfl⟩,
   ⟨rfl, rfl, fun _ => rfl⟩,
   fun _ => ⟨rfl, rfl, fun _ => rfl⟩,
   ⟨rfl, rfl, fun _ => rfl⟩,
   fun _ => ⟨rfl, rfl, fun _ => rfl⟩,
   fun _ => ⟨rfl, rfl, fun _ => rfl⟩⟩

theorem sound_opcodeRows1 : List.Forall Row.Sound opcodeRows1 :=
  ⟨fun _ => ⟨rfl, rfl, fun _ => rfl⟩,
   fun _ => ⟨rfl, rfl, fun _ => rfl⟩,
   fun _ => ⟨rfl, rfl, fun _ => rfl⟩,
   fun _ => ⟨rfl, rfl, fun _ => rfl⟩,
   ⟨rfl, rfl, fun _ => rfl⟩,
   fun _ => ⟨rfl, rfl, fun _ => rfl⟩,
   fun _ => ⟨rfl, rfl, fun _ => rfl⟩,
   fun _ => ⟨rfl, rfl, fun _ => rfl⟩⟩

theorem sound_opcodeRows2 : List.Forall Row.Sound opcodeRows2 :=
  ⟨fun _ => ⟨rfl, rfl, fun _ => rfl⟩,
   fun _ => ⟨rfl, rfl, fun _ => rfl⟩,
   fun _ => ⟨rfl, rfl, fun _ => rfl⟩,
   fun _ => ⟨rfl, rfl, fun _ => rfl⟩,
   fun _ => ⟨rfl, rfl, fun _ => rfl⟩,
   ⟨rfl, rfl, fun _ => rfl⟩,
   fun _ => ⟨rfl, rfl, fun _ => rfl⟩,
   ⟨rfl, rfl, fun _ => rfl⟩,
   fun _ => ⟨rfl, rfl, fun _ => rfl⟩,
   fun _ => ⟨rfl, rfl, fun _ => rfl⟩,
   fun _ => ⟨rfl, rfl, fun _ => rfl⟩⟩

theorem sound_opcodeRows3 : List.Forall Row.Sound opcodeRows3 :=
  ⟨fun _ => ⟨rfl, rfl, fun _ => rfl⟩,
   fun _ => ⟨rfl, rfl, fun _ => rfl⟩,
   fun _ => ⟨rfl, rfl, fun _ => rfl⟩,
   fun _ => ⟨rfl, rfl, fun _ => rfl⟩,
   ⟨rfl, rfl, fun _ => rfl⟩,
   fun _ => ⟨rfl, rfl, fun _ => rfl⟩,
   fun _ => ⟨rfl, rfl, fun _ => rfl⟩,
   fun _ => ⟨rfl, rfl, fun _ => rfl⟩⟩

theorem sound_opcodeRows4 : List.Forall Row.Sound opcodeRows4 :=
  ⟨⟨rfl, rfl, fun _ => rfl⟩,
   fun _ => ⟨rfl, rfl, fun _ => rfl⟩,
   fun _ => ⟨rfl, rfl, fun _ => rfl⟩,
   fun _ => ⟨rfl, rfl, fun _ => rfl⟩,
   ⟨rfl, rfl, fun _ => rfl⟩,
   fun _ => ⟨rfl, rfl, fun _ => rfl⟩,
   ⟨rfl, rfl, fun _ => rfl⟩,
   fun _ => ⟨rfl, rfl, fun _ => rfl⟩,
   fun _ => ⟨rfl, rfl, fun _ => rfl⟩,
   fun _ => ⟨rfl, rfl, fun _ => rfl⟩⟩

theorem sound_opcodeRows5 : List.Forall Row.Sound opcodeRows5 :=
  ⟨fun _ => ⟨rfl, rfl, fun _ => rfl⟩,
   fun _ => ⟨rfl, rfl, fun _ => rfl⟩,
   fun _ => ⟨rfl, rfl, fun _ => rfl⟩,
   fun _ => ⟨rfl, rfl, fun _ => rfl⟩,
   ⟨rfl, rfl, fun _ => rfl⟩,
   fun _ => ⟨rfl, rfl, fun _ => rfl⟩,
   fun _ => ⟨rfl, rfl, fun _ => rfl⟩,
   fun _ => ⟨rfl, rfl, fun _ => rfl⟩⟩

theorem sound_opcodeRows6 : List.Forall Row.Sound opcodeRows6 :=
  ⟨⟨rfl, rfl, fun _ => rfl⟩,
   fun _ => ⟨rfl, rfl, fun _ => rfl⟩,
   fun _ => ⟨rfl, rfl, fun _ => rfl⟩,
   fun _ => ⟨rfl, rfl, fun _ => rfl⟩,
   ⟨rfl, rfl, fun _ => rfl⟩,
   fun _ => ⟨rfl, rfl, fun _ => rfl⟩,
   ⟨rfl, rfl, fun _ => rfl⟩,
   fun _ => ⟨rfl, rfl, fun _ => rfl⟩,
   fun _ => ⟨rfl, rfl, fun _ => rfl⟩,
   fun _ => ⟨rfl, rfl, fun _ => rfl⟩⟩

theorem sound_opcodeRows7 : List.Forall Row.Sound opcodeRows7 :=
  ⟨fun _ => ⟨rfl, rfl, fun _ => rfl⟩,
   fun _ => ⟨rfl, rfl, fun _ => rfl⟩,
   fun _ => ⟨rfl, rfl, fun _ => rfl⟩,
   fun _ => ⟨rfl, rfl, fun _ => rfl⟩,
   ⟨rfl, rfl, fun _ => rfl⟩,
   fun _ => ⟨rfl, rfl, fun _ => rfl⟩,
   fun _ => ⟨rfl, rfl, fun _ => rfl⟩,
   fun _ => ⟨rfl, rfl, fun _ => rfl⟩⟩

theorem sound_opcodeRows8 : List.Forall Row.Sound opcodeRows8 :=
  ⟨fun _ => ⟨rfl, rfl, fun _ => rfl⟩,
   fun _ => ⟨rfl, rfl, fun _ => rfl⟩,
   fun _ => ⟨rfl, rfl, fun _ => rfl⟩,
   fun _ => ⟨rfl, rfl, fun _ => rfl⟩,
   ⟨rfl, rfl, fun _ => rfl⟩,
   ⟨rfl, rfl, fun _ => rfl⟩,
   fun _ => ⟨rfl, rfl, fun _ => rfl⟩,
   fun _ => ⟨rfl, rfl, fun _ => rfl⟩,
   fun _ => ⟨rfl, rfl, fun _ => rfl⟩⟩

theorem sound_opcodeRows9 : List.Forall Row.Sound opcodeRows9 :=
  ⟨fun _ => ⟨rfl, rfl, fun _ => rfl⟩,
   fun _ => ⟨rfl, rfl, fun _ => rfl⟩,
   fun _ => ⟨rfl, rfl, fun _ => rfl⟩,
   fun _ => ⟨rfl, rfl, fun _ => rfl⟩,
   fun _ => ⟨rfl, rfl, fun _ => rfl⟩,
   ⟨rfl, rfl, fun _ => rfl⟩,
   fun _ => ⟨rfl, rfl, fun _ => rfl⟩,
   ⟨rfl, rfl, fun _ => rfl⟩,
   fun _ => ⟨rfl, rfl, fun _ => rfl⟩⟩

theorem sound_opcodeRowsA : List.Forall Row.Sound opcodeRowsA :=
  ⟨fun _ => ⟨rfl, rfl, fun _ => rfl⟩,
   fun _ => ⟨rfl, rfl, fun _ => rfl⟩,
   fun _ => ⟨rfl, rfl, fun _ => rfl⟩,
   fun _ => ⟨rfl, rfl, fun _ => rfl⟩,
   fun _ => ⟨rfl, rfl, fun _ => rfl⟩,
   fun _ => ⟨rfl, rfl, fun _ => rfl⟩,
   ⟨rfl, rfl, fun _ => rfl⟩,
   fun _ => ⟨rfl, rfl, fun _ => rfl⟩,
   ⟨rfl, rfl, fun _ => rfl⟩,
   fun _ => ⟨rfl, rfl, fun _ => rfl⟩,
   fun _ => ⟨rfl, rfl, fun _ => rfl⟩,
   fun _ => ⟨rfl, rfl, fun _ => rfl⟩⟩

theorem sound_opcodeRowsB : List.Forall Row.Sound opcodeRowsB :=
  ⟨fun _ => ⟨rfl, rfl, fun _ => rfl⟩,
   fun _ => ⟨rfl, rfl, fun _ => rfl⟩,
   fun _ => ⟨rfl, rfl, fun _ => rfl⟩,
   fun _ => ⟨rfl, rfl, fun _ => rfl⟩,
   fun _ => ⟨rfl, rfl, fun _ => rfl⟩,
   ⟨rfl, rfl, fun _ => rfl⟩,
   fun _ => ⟨rfl, rfl, fun _ => rfl⟩,
   ⟨rfl, rfl, fun _ => rfl⟩,
   fun _ => ⟨rfl, rfl, fun _ => rfl⟩,
   fun _ => ⟨rfl, rfl, fun _ => rfl⟩,
   fun _ => ⟨rfl, rfl, fun _ => rfl⟩⟩

theorem sound_opcodeRowsC : List.Forall Row.Sound opcodeRowsC :=
  ⟨fun _ => ⟨rfl, rfl, fun _ => rfl⟩,
   fun _ => ⟨rfl, rfl, fun _ => rfl⟩,
   fun _ => ⟨rfl, rfl, fun _ => rfl⟩,
   fun _ => ⟨rfl, rfl, fun _ => rfl⟩,
   fun _ => ⟨rfl, rfl, fun _ => rfl⟩,
   ⟨rfl, rfl, fun _ => rfl⟩,
   fun _ => ⟨rfl, rfl, fun _ => rfl⟩,
   ⟨rfl, rfl, fun _ => rfl⟩,
   fun _ => ⟨rfl, rfl, fun _ => rfl⟩,
   fun _ => ⟨rfl, rfl, fun _ => rfl⟩,
   fun _ => ⟨rfl, rfl, fun _ => rfl⟩⟩

theorem sound_opcodeRowsD : List.Forall Row.Sound opcodeRowsD :=
  ⟨fun _ => ⟨rfl, rfl, fun _ => rfl⟩,
   fun _ => ⟨rfl, rfl, fun _ => rfl⟩,
   fun _ => ⟨rfl, rfl, fun _ => rfl⟩,
   fun _ => ⟨rfl, rfl, fun _ => rfl⟩,
   ⟨rfl, rfl, fun _ => rfl⟩,
   fun _ => ⟨rfl, rfl, fun _ => rfl⟩,
   fun _ => ⟨rfl, rfl, fun _ => rfl⟩,
   fun _ => ⟨rfl, rfl, fun _ => rfl⟩⟩

theorem sound_opcodeRowsE : List.Forall Row.Sound opcodeRowsE :=
  ⟨fun _ => ⟨rfl, rfl, fun _ => rfl⟩,
   fun _ => ⟨rfl, rfl, fun _ => rfl⟩,
   fun _ => ⟨rfl, rfl, fun _ => rfl⟩,
   fun _ => ⟨rfl, rfl, fun _ => rfl⟩,
   fun _ => ⟨rfl, rfl, fun _ => rfl⟩,
   ⟨rfl, rfl, fun _ => rfl⟩,
   fun _ => ⟨rfl, rfl, fun _ => rfl⟩,
   ⟨rfl, rfl, fun _ => rfl⟩,
   fun _ => ⟨rfl, rfl, fun _ => rfl⟩,
   fun _ => ⟨rfl, rfl, fun _ => rfl⟩,
   fun _ => ⟨rfl, rfl, fun _ => rfl⟩⟩

theorem sound_opcodeRowsF : List.Forall Row.Sound opcodeRowsF :=
  ⟨fun _ => ⟨rfl, rfl, fun _ => rfl⟩,
   fun _ => ⟨rfl, rfl, fun _ => rfl⟩,
   fun _ => ⟨rfl, rfl, fun _ => rfl⟩,
   fun _ => ⟨rfl, rfl, fun _ => rfl⟩,
   ⟨rfl, rfl, fun _ => rfl⟩,
   fun _ => ⟨rfl, rfl, fun _ => rfl⟩,
   fun _ => ⟨rfl, rfl, fun _ => rfl⟩,
   fun _ => ⟨rfl, rfl, fun _ => rfl⟩⟩


/-- Every row of the map is sound. -/
theorem row_sound {r : Row} (h : r ∈ opcodeTable) : r.Sound := by
  simp only [opcodeTable, List.mem_append, or_assoc] at h
  rcases h with h | h | h | h | h | h | h | h | h | h | h | h | h | h | h | h
  · exact List.forall_iff_forall_mem.mp sound_opcodeRows0 _ h
  · exact List.forall_iff_forall_mem.mp sound_opcodeRows1 _ h
  · exact List.forall_iff_forall_mem.mp sound_opcodeRows2 _ h
  · exact List.forall_iff_forall_mem.mp sound_opcodeRows3 _ h
  · exact List.forall_iff_forall_mem.mp sound_opcodeRows4 _ h
  · exact List.forall_iff_forall_mem.mp sound_opcodeRows5 _ h
  · exact List.forall_iff_forall_mem.mp sound_opcodeRows6 _ h
  · exact List.forall_iff_forall_mem.mp sound_opcodeRows7 _ h
  · exact List.forall_iff_forall_mem.mp sound_opcodeRows8 _ h
  · exact List.forall_iff_forall_mem.mp sound_opcodeRows9 _ h
  · exact List.forall_iff_forall_mem.mp sound_opcodeRowsA _ h
  · exact List.forall_iff_forall_mem.mp sound_opcodeRowsB _ h
  · exact List.forall_iff_forall_mem.mp sound_opcodeRowsC _ h
  · exact List.forall_iff_forall_mem.mp sound_opcodeRowsD _ h
  · exact List.forall_iff_forall_mem.mp sound_opcodeRowsE _ h
  · exact List.forall_iff_forall_mem.mp sound_opcodeRowsF _ h

/-- An entry found is the shape of a row with that opcode byte. -/
theorem findRow_mem {opc : Byte} {shape : Shape} {rows : List Row} (h : findRow opc rows = some shape) :
    ∃ r ∈ rows, r.opcode = opc ∧ r.shape = shape := by
  induction rows with
  | nil => cases h
  | cons r rs ih =>
    unfold findRow at h
    split at h
    · exact ⟨r, List.mem_cons_self, ‹_›, Option.some.inj h⟩
    · obtain ⟨r', hr, h'⟩ := ih h
      exact ⟨r', List.mem_cons_of_mem _ hr, h'⟩

/-- Among rows with distinct opcode bytes, a row is the one found for its byte. -/
theorem findRow_of_mem {r : Row} {rows : List Row} (hn : (rows.map Row.opcode).Nodup) (h : r ∈ rows) :
    findRow r.opcode rows = some r.shape := by
  induction rows with
  | nil => cases h
  | cons q qs ih =>
    rw [List.map_cons, List.nodup_cons] at hn
    rcases List.mem_cons.mp h with rfl | h
    · rw [findRow, if_pos rfl]
    · rw [findRow, if_neg fun e : q.opcode = r.opcode => hn.1 (e ▸ List.mem_map_of_mem h), ih hn.2 h]

end Sys2Proof
end

