-- ==== Sys2Proof/Laws/Memory.lean ====
section
/-! SUPPORT. The laws of the storage: the canonical form is kept by every operation, a read after a write, and
equal contents are equal data. -/

namespace Sys2Proof.Machine

theorem Memory.wfFrom_cons {low k : Nat} {v : Byte} {m : Memory} :
    Memory.wfFrom low ((k, v) :: m) = true ↔
      low ≤ k ∧ k < 65536 ∧ v ≠ Memory.unlisted ∧ Memory.wfFrom (k + 1) m = true := by
  simp [Memory.wfFrom, and_assoc]

theorem Memory.wfFrom_mono {low low' : Nat} {m : Memory} (h : Memory.wfFrom low m = true) (hl : low' ≤ low) :
    Memory.wfFrom low' m = true := by
  cases m with
  | nil => rfl
  | cons c m =>
    obtain ⟨k, v⟩ := c
    rw [Memory.wfFrom_cons] at h ⊢
    exact ⟨hl.trans h.1, h.2⟩

/-- Below the first address of the form nothing is listed. -/
theorem Memory.read_below {low a : Nat} {m : Memory} (h : Memory.wfFrom low m = true) (ha : a < low) :
    m.read a = Memory.unlisted := by
  induction m generalizing low with
  | nil => rfl
  | cons c m ih =>
    obtain ⟨k, v⟩ := c
    rw [Memory.wfFrom_cons] at h
    have hk : k ≠ a := by omega
    simp [Memory.read, hk, ih h.2.2.2 (by omega)]

theorem Memory.wfFrom_write {low a : Nat} {v : Byte} {m : Memory} (h : Memory.wfFrom low m = true)
    (hl : low ≤ a) (ha : a < 65536) : Memory.wfFrom low (m.write a v) = true := by
  induction m generalizing low with
  | nil =>
    by_cases hv : v = Memory.unlisted
    · simp [Memory.write, hv, Memory.wfFrom]
    · simp [Memory.write, hv, Memory.wfFrom, hl, ha]
  | cons c m ih =>
    obtain ⟨k, w⟩ := c
    have h' := Memory.wfFrom_cons.mp h
    unfold Memory.write
    split_ifs with h1 h2 h3 h4
    · exact h
    · exact Memory.wfFrom_cons.mpr ⟨hl, ha, h2, Memory.wfFrom_cons.mpr ⟨h1, h'.2⟩⟩
    · exact Memory.wfFrom_mono h'.2.2.2 (by omega)
    · exact Memory.wfFrom_cons.mpr ⟨hl, ha, h4, h3 ▸ h'.2.2.2⟩
    · exact Memory.wfFrom_cons.mpr ⟨h'.1, h'.2.1, h'.2.2.1, ih h'.2.2.2 (by omega)⟩

/-- A write keeps the canonical form. -/
theorem Memory.wf_write {m : Memory} {a : Nat} {v : Byte} (h : m.wf = true) (ha : a < 65536) :
    (m.write a v).wf = true := Memory.wfFrom_write h (Nat.zero_le a) ha

theorem Memory.wf_nil : Memory.wf [] = true := rfl

theorem Memory.read_write_from {low : Nat} {m : Memory} (a b : Nat) (v : Byte) (h : Memory.wfFrom low m = true) :
    (m.write a v).read b = if b = a then v else m.read b := by
  induction m generalizing low with
  | nil =>
    by_cases hv : v = Memory.unlisted <;> by_cases hb : b = a <;>
      simp [Memory.write, Memory.read, hv, hb, eq_comm]
    intro h'
    exact absurd h'.symm hb
  | cons c m ih =>
    obtain ⟨k, w⟩ := c
    have h' := Memory.wfFrom_cons.mp h
    have hk : ∀ x, x < k + 1 → Memory.read m x = Memory.unlisted := fun x hx => Memory.read_below h'.2.2.2 hx
    rcases Nat.lt_trichotomy a k with h1 | h1 | h1
    · by_cases h2 : v = Memory.unlisted
      · by_cases hb : b = a
        · subst hb
          simp [Memory.write, Memory.read, h1, h2, show k ≠ b by omega, hk b (by omega)]
        · simp [Memory.write, h1, h2, hb]
      · by_cases hb : b = a
        · simp [Memory.write, Memory.read, h1, h2, hb]
        · simp [Memory.write, Memory.read, h1, h2, hb, show a ≠ b from fun e => hb e.symm]
    · subst h1
      by_cases h2 : v = Memory.unlisted
      · by_cases hb : b = a
        · subst hb
          simp [Memory.write, h2, hk b (by omega)]
        · simp [Memory.write, Memory.read, h2, hb, show a ≠ b from fun e => hb e.symm]
      · by_cases hb : b = a
        · simp [Memory.write, Memory.read, h2, hb]
        · simp [Memory.write, Memory.read, h2, hb, show a ≠ b from fun e => hb e.symm]
    · by_cases hb : k = b
      · subst hb
        simp [Memory.write, Memory.read, show ¬ a < k by omega, show a ≠ k by omega, show k ≠ a by omega]
      · simp [Memory.write, Memory.read, show ¬ a < k by omega, show a ≠ k by omega, hb, ih h'.2.2.2]

/-- A read after a write: the byte written, and every other byte as before (R51). -/
theorem Memory.read_write {m : Memory} (a b : Nat) (v : Byte) (h : m.wf = true) :
    (m.write a v).read b = if b = a then v else m.read b := Memory.read_write_from a b v h

theorem Memory.wfFrom_ofImageFrom (image : List Byte) (a : Nat) : Memory.wfFrom a (Memory.ofImageFrom a image) = true := by
  induction image generalizing a with
  | nil => rfl
  | cons b bs ih =>
    unfold Memory.ofImageFrom
    split_ifs with h1 h2
    · exact Memory.wfFrom_mono (ih (a + 1)) (by omega)
    · exact Memory.wfFrom_cons.mpr ⟨le_refl a, h1, h2, ih (a + 1)⟩
    · rfl

/-- A loaded image is in canonical form. -/
theorem Memory.wf_ofImage (image : List Byte) : (Memory.ofImage image).wf = true :=
  Memory.wfFrom_ofImageFrom image 0

theorem Memory.read_ofImageFrom (image : List Byte) (a b : Nat) (hb : b < 65536) (hab : a ≤ b) :
    (Memory.ofImageFrom a image).read b = (image[b - a]?).getD Memory.unlisted := by
  induction image generalizing a with
  | nil => simp [Memory.ofImageFrom, Memory.read]
  | cons v vs ih =>
    unfold Memory.ofImageFrom
    rw [if_pos (by omega)]
    by_cases h : a = b
    · subst h
      have hr := Memory.read_below (Memory.wfFrom_ofImageFrom vs (a + 1)) (Nat.lt_succ_self a)
      split_ifs with h2
      · simp [hr, h2]
      · simp [Memory.read]
    · have hi : b - a = b - (a + 1) + 1 := by omega
      have := ih (a + 1) (by omega)
      split_ifs with h2
      · rw [this, hi, List.getElem?_cons_succ]
      · simp only [Memory.read, if_neg h]
        rw [this, hi, List.getElem?_cons_succ]

/-- Canonical memories that read alike from `low` up are equal. -/
theorem Memory.ext_from {low : Nat} {m m' : Memory} (h : Memory.wfFrom low m = true) (h' : Memory.wfFrom low m' = true)
    (he : ∀ a, m.read a = m'.read a) : m = m' := by
  induction m generalizing low m' with
  | nil =>
    cases m' with
    | nil => rfl
    | cons c m' =>
      obtain ⟨k, v⟩ := c
      have hc := Memory.wfFrom_cons.mp h'
      have := he k
      simp only [Memory.read, if_true] at this
      exact absurd this.symm hc.2.2.1
  | cons c m ih =>
    obtain ⟨k, v⟩ := c
    have hc := Memory.wfFrom_cons.mp h
    cases m' with
    | nil =>
      have := he k
      simp only [Memory.read, if_true] at this
      exact absurd this hc.2.2.1
    | cons c' m' =>
      obtain ⟨k', v'⟩ := c'
      have hc' := Memory.wfFrom_cons.mp h'
      have hkk : k = k' := by
        rcases Nat.lt_trichotomy k k' with hlt | heq | hgt
        · have h1 := he k
          simp only [Memory.read, if_true, if_neg (show k' ≠ k by omega),
            Memory.read_below hc'.2.2.2 (show k < k' + 1 by omega)] at h1
          exact absurd h1 hc.2.2.1
        · exact heq
        · have h1 := he k'
          simp only [Memory.read, if_true, if_neg (show k ≠ k' by omega),
            Memory.read_below hc.2.2.2 (show k' < k + 1 by omega)] at h1
          exact absurd h1.symm hc'.2.2.1
      subst hkk
      have hv : v = v' := by
        have := he k
        simpa [Memory.read] using this
      subst hv
      congr 1
      refine ih hc.2.2.2 hc'.2.2.2 fun a => ?_
      by_cases ha : k = a
      · subst ha
        rw [Memory.read_below hc.2.2.2 (Nat.lt_succ_self k), Memory.read_below hc'.2.2.2 (Nat.lt_succ_self k)]
      · simpa [Memory.read, ha] using he a

/-- Equal contents are equal data. -/
theorem Memory.ext {m m' : Memory} (h : m.wf = true) (h' : m'.wf = true) (he : ∀ a, m.read a = m'.read a) : m = m' :=
  Memory.ext_from h h' he

end Sys2Proof.Machine
end

