-- ==== Sys2Proof/Laws/State.lean ====
section
/-! SUPPORT. The projections of State through every update operation, one lemma per field, and of Status through
SetZN: no later proof unfolds a record update. -/

namespace Sys2Proof.Machine

@[simp] theorem State.record_a (s : State) (l : List Access) : (s.record l).a = s.a := rfl
@[simp] theorem State.record_x (s : State) (l : List Access) : (s.record l).x = s.x := rfl
@[simp] theorem State.record_y (s : State) (l : List Access) : (s.record l).y = s.y := rfl
@[simp] theorem State.record_sp (s : State) (l : List Access) : (s.record l).sp = s.sp := rfl
@[simp] theorem State.record_pc (s : State) (l : List Access) : (s.record l).pc = s.pc := rfl
@[simp] theorem State.record_p (s : State) (l : List Access) : (s.record l).p = s.p := rfl
@[simp] theorem State.record_mem (s : State) (l : List Access) : (s.record l).mem = s.mem := rfl
@[simp] theorem State.record_run (s : State) (l : List Access) : (s.record l).run = s.run := rfl
@[simp] theorem State.record_trace (s : State) (l : List Access) : (s.record l).trace = s.trace ++ s.params.notificationsOf l := rfl
@[simp] theorem State.record_params (s : State) (l : List Access) : (s.record l).params = s.params := rfl

@[simp] theorem State.readByte_fst (s : State) (a : Word) : (s.readByte a).1 = s.byteAt a := rfl
@[simp] theorem State.readByte_snd (s : State) (a : Word) : (s.readByte a).2 = s.record [.onRead a] := rfl

@[simp] theorem State.writeByte_a (s : State) (b : Word) (v : Byte) : (s.writeByte b v).a = s.a := rfl
@[simp] theorem State.writeByte_x (s : State) (b : Word) (v : Byte) : (s.writeByte b v).x = s.x := rfl
@[simp] theorem State.writeByte_y (s : State) (b : Word) (v : Byte) : (s.writeByte b v).y = s.y := rfl
@[simp] theorem State.writeByte_sp (s : State) (b : Word) (v : Byte) : (s.writeByte b v).sp = s.sp := rfl
@[simp] theorem State.writeByte_pc (s : State) (b : Word) (v : Byte) : (s.writeByte b v).pc = s.pc := rfl
@[simp] theorem State.writeByte_p (s : State) (b : Word) (v : Byte) : (s.writeByte b v).p = s.p := rfl
@[simp] theorem State.writeByte_mem (s : State) (b : Word) (v : Byte) : (s.writeByte b v).mem = s.mem.write b.toNat v := rfl
@[simp] theorem State.writeByte_run (s : State) (b : Word) (v : Byte) : (s.writeByte b v).run = s.run := rfl
@[simp] theorem State.writeByte_trace (s : State) (b : Word) (v : Byte) : (s.writeByte b v).trace = s.trace ++ s.params.notificationsOf [.onWrite b v] := rfl
@[simp] theorem State.writeByte_params (s : State) (b : Word) (v : Byte) : (s.writeByte b v).params = s.params := rfl

@[simp] theorem State.fetch8_fst (s : State) : s.fetch8.1 = s.byteAt s.pc := rfl
@[simp] theorem State.fetch8_snd_a (s : State) : (s.fetch8.2).a = s.a := rfl
@[simp] theorem State.fetch8_snd_x (s : State) : (s.fetch8.2).x = s.x := rfl
@[simp] theorem State.fetch8_snd_y (s : State) : (s.fetch8.2).y = s.y := rfl
@[simp] theorem State.fetch8_snd_sp (s : State) : (s.fetch8.2).sp = s.sp := rfl
@[simp] theorem State.fetch8_snd_pc (s : State) : (s.fetch8.2).pc = s.pc + 1 := rfl
@[simp] theorem State.fetch8_snd_p (s : State) : (s.fetch8.2).p = s.p := rfl
@[simp] theorem State.fetch8_snd_mem (s : State) : (s.fetch8.2).mem = s.mem := rfl
@[simp] theorem State.fetch8_snd_run (s : State) : (s.fetch8.2).run = s.run := rfl
@[simp] theorem State.fetch8_snd_trace (s : State) : (s.fetch8.2).trace = s.trace ++ s.params.notificationsOf [.onRead s.pc] := rfl
@[simp] theorem State.fetch8_snd_params (s : State) : (s.fetch8.2).params = s.params := rfl

@[simp] theorem State.opcodeFetched_a (s : State) : (s.opcodeFetched).a = s.a := rfl
@[simp] theorem State.opcodeFetched_x (s : State) : (s.opcodeFetched).x = s.x := rfl
@[simp] theorem State.opcodeFetched_y (s : State) : (s.opcodeFetched).y = s.y := rfl
@[simp] theorem State.opcodeFetched_sp (s : State) : (s.opcodeFetched).sp = s.sp := rfl
@[simp] theorem State.opcodeFetched_pc (s : State) : (s.opcodeFetched).pc = s.pc + 1 := rfl
@[simp] theorem State.opcodeFetched_p (s : State) : (s.opcodeFetched).p = s.p := rfl
@[simp] theorem State.opcodeFetched_mem (s : State) : (s.opcodeFetched).mem = s.mem := rfl
@[simp] theorem State.opcodeFetched_run (s : State) : (s.opcodeFetched).run = s.run := rfl
@[simp] theorem State.opcodeFetched_trace (s : State) : (s.opcodeFetched).trace = s.trace ++ s.params.notificationsOf [.onRead s.pc] := rfl
@[simp] theorem State.opcodeFetched_params (s : State) : (s.opcodeFetched).params = s.params := rfl

@[simp] theorem State.push_a (s : State) (v : Byte) : (s.push v).a = s.a := rfl
@[simp] theorem State.push_x (s : State) (v : Byte) : (s.push v).x = s.x := rfl
@[simp] theorem State.push_y (s : State) (v : Byte) : (s.push v).y = s.y := rfl
@[simp] theorem State.push_sp (s : State) (v : Byte) : (s.push v).sp = s.sp - 1 := rfl
@[simp] theorem State.push_pc (s : State) (v : Byte) : (s.push v).pc = s.pc := rfl
@[simp] theorem State.push_p (s : State) (v : Byte) : (s.push v).p = s.p := rfl
@[simp] theorem State.push_mem (s : State) (v : Byte) : (s.push v).mem = s.mem.write (stackAddr s.sp).toNat v := rfl
@[simp] theorem State.push_run (s : State) (v : Byte) : (s.push v).run = s.run := rfl
@[simp] theorem State.push_trace (s : State) (v : Byte) : (s.push v).trace = s.trace ++ s.params.notificationsOf [.onWrite (stackAddr s.sp) v] := rfl
@[simp] theorem State.push_params (s : State) (v : Byte) : (s.push v).params = s.params := rfl

@[simp] theorem State.pull_fst (s : State) : s.pull.1 = s.byteAt (stackAddr (s.sp + 1)) := rfl
@[simp] theorem State.pull_snd_a (s : State) : (s.pull.2).a = s.a := rfl
@[simp] theorem State.pull_snd_x (s : State) : (s.pull.2).x = s.x := rfl
@[simp] theorem State.pull_snd_y (s : State) : (s.pull.2).y = s.y := rfl
@[simp] theorem State.pull_snd_sp (s : State) : (s.pull.2).sp = s.sp + 1 := rfl
@[simp] theorem State.pull_snd_pc (s : State) : (s.pull.2).pc = s.pc := rfl
@[simp] theorem State.pull_snd_p (s : State) : (s.pull.2).p = s.p := rfl
@[simp] theorem State.pull_snd_mem (s : State) : (s.pull.2).mem = s.mem := rfl
@[simp] theorem State.pull_snd_run (s : State) : (s.pull.2).run = s.run := rfl
@[simp] theorem State.pull_snd_trace (s : State) : (s.pull.2).trace = s.trace ++ s.params.notificationsOf [.onRead (stackAddr (s.sp + 1))] := rfl
@[simp] theorem State.pull_snd_params (s : State) : (s.pull.2).params = s.params := rfl

@[simp] theorem State.raiseFault_a (s : State) (kind : FaultKind) (opcode : Byte) (now : State) : (raiseFault kind opcode s now).a = s.a := rfl
@[simp] theorem State.raiseFault_x (s : State) (kind : FaultKind) (opcode : Byte) (now : State) : (raiseFault kind opcode s now).x = s.x := rfl
@[simp] theorem State.raiseFault_y (s : State) (kind : FaultKind) (opcode : Byte) (now : State) : (raiseFault kind opcode s now).y = s.y := rfl
@[simp] theorem State.raiseFault_sp (s : State) (kind : FaultKind) (opcode : Byte) (now : State) : (raiseFault kind opcode s now).sp = s.sp := rfl
@[simp] theorem State.raiseFault_pc (s : State) (kind : FaultKind) (opcode : Byte) (now : State) : (raiseFault kind opcode s now).pc = s.pc := rfl
@[simp] theorem State.raiseFault_p (s : State) (kind : FaultKind) (opcode : Byte) (now : State) : (raiseFault kind opcode s now).p = s.p := rfl
@[simp] theorem State.raiseFault_mem (s : State) (kind : FaultKind) (opcode : Byte) (now : State) : (raiseFault kind opcode s now).mem = s.mem := rfl
@[simp] theorem State.raiseFault_run (s : State) (kind : FaultKind) (opcode : Byte) (now : State) : (raiseFault kind opcode s now).run = .faulted kind s.pc opcode := rfl
@[simp] theorem State.raiseFault_trace (s : State) (kind : FaultKind) (opcode : Byte) (now : State) : (raiseFault kind opcode s now).trace = now.trace := rfl
@[simp] theorem State.raiseFault_params (s : State) (kind : FaultKind) (opcode : Byte) (now : State) : (raiseFault kind opcode s now).params = s.params := rfl

@[simp] theorem State.hostLoad_a (s : State) (image : List Byte) : (s.hostLoad image).a = s.a := rfl
@[simp] theorem State.hostLoad_x (s : State) (image : List Byte) : (s.hostLoad image).x = s.x := rfl
@[simp] theorem State.hostLoad_y (s : State) (image : List Byte) : (s.hostLoad image).y = s.y := rfl
@[simp] theorem State.hostLoad_sp (s : State) (image : List Byte) : (s.hostLoad image).sp = s.sp := rfl
@[simp] theorem State.hostLoad_pc (s : State) (image : List Byte) : (s.hostLoad image).pc = s.pc := rfl
@[simp] theorem State.hostLoad_p (s : State) (image : List Byte) : (s.hostLoad image).p = s.p := rfl
@[simp] theorem State.hostLoad_mem (s : State) (image : List Byte) : (s.hostLoad image).mem = Memory.ofImage image := rfl
@[simp] theorem State.hostLoad_run (s : State) (image : List Byte) : (s.hostLoad image).run = s.run := rfl
@[simp] theorem State.hostLoad_trace (s : State) (image : List Byte) : (s.hostLoad image).trace = s.trace := rfl
@[simp] theorem State.hostLoad_params (s : State) (image : List Byte) : (s.hostLoad image).params = s.params := rfl

@[simp] theorem State.hostRegister_a (s : State) (r : Registration) : (s.hostRegister r).a = s.a := rfl
@[simp] theorem State.hostRegister_x (s : State) (r : Registration) : (s.hostRegister r).x = s.x := rfl
@[simp] theorem State.hostRegister_y (s : State) (r : Registration) : (s.hostRegister r).y = s.y := rfl
@[simp] theorem State.hostRegister_sp (s : State) (r : Registration) : (s.hostRegister r).sp = s.sp := rfl
@[simp] theorem State.hostRegister_pc (s : State) (r : Registration) : (s.hostRegister r).pc = s.pc := rfl
@[simp] theorem State.hostRegister_p (s : State) (r : Registration) : (s.hostRegister r).p = s.p := rfl
@[simp] theorem State.hostRegister_mem (s : State) (r : Registration) : (s.hostRegister r).mem = s.mem := rfl
@[simp] theorem State.hostRegister_run (s : State) (r : Registration) : (s.hostRegister r).run = s.run := rfl
@[simp] theorem State.hostRegister_trace (s : State) (r : Registration) : (s.hostRegister r).trace = s.trace := rfl
@[simp] theorem State.hostRegister_params (s : State) (r : Registration) : (s.hostRegister r).params = { s.params with observers := s.params.observers ++ [r] } := rfl

@[simp] theorem State.past_a (s : State) (i : Instr) (l : List Access) : (s.past i l).a = s.a := rfl
@[simp] theorem State.past_x (s : State) (i : Instr) (l : List Access) : (s.past i l).x = s.x := rfl
@[simp] theorem State.past_y (s : State) (i : Instr) (l : List Access) : (s.past i l).y = s.y := rfl
@[simp] theorem State.past_sp (s : State) (i : Instr) (l : List Access) : (s.past i l).sp = s.sp := rfl
@[simp] theorem State.past_pc (s : State) (i : Instr) (l : List Access) : (s.past i l).pc = s.pc + BitVec.ofNat 16 i.size := rfl
@[simp] theorem State.past_p (s : State) (i : Instr) (l : List Access) : (s.past i l).p = s.p := rfl
@[simp] theorem State.past_mem (s : State) (i : Instr) (l : List Access) : (s.past i l).mem = s.mem := rfl
@[simp] theorem State.past_run (s : State) (i : Instr) (l : List Access) : (s.past i l).run = s.run := rfl
@[simp] theorem State.past_trace (s : State) (i : Instr) (l : List Access) : (s.past i l).trace = s.observed (s.fetchReads i.size ++ l) := rfl
@[simp] theorem State.past_params (s : State) (i : Instr) (l : List Access) : (s.past i l).params = s.params := rfl

@[simp] theorem State.byteAt_record (s : State) (l : List Access) (b : Word) : (s.record l).byteAt b = s.byteAt b := rfl
@[simp] theorem State.byteAt_opcodeFetched (s : State) (b : Word) : s.opcodeFetched.byteAt b = s.byteAt b := rfl
@[simp] theorem State.byteAt_past (s : State) (i : Instr) (l : List Access) (b : Word) : (s.past i l).byteAt b = s.byteAt b := rfl
@[simp] theorem State.byteAt_pull (s : State) (b : Word) : s.pull.2.byteAt b = s.byteAt b := rfl

@[simp] theorem Status.setZN_c (p : Status) (v : Byte) : (p.setZN v).c = p.c := rfl
@[simp] theorem Status.setZN_z (p : Status) (v : Byte) : (p.setZN v).z = (v == 0#8) := rfl
@[simp] theorem Status.setZN_i (p : Status) (v : Byte) : (p.setZN v).i = p.i := rfl
@[simp] theorem Status.setZN_d (p : Status) (v : Byte) : (p.setZN v).d = p.d := rfl
@[simp] theorem Status.setZN_b (p : Status) (v : Byte) : (p.setZN v).b = p.b := rfl
@[simp] theorem Status.setZN_v (p : Status) (v : Byte) : (p.setZN v).v = p.v := rfl
@[simp] theorem Status.setZN_n (p : Status) (v : Byte) : (p.setZN v).n = bit v 7 := rfl

/-- The byte at an address depends on storage alone. -/
theorem State.byteAt_of_mem {s t : State} (h : s.mem = t.mem) (b : Word) : s.byteAt b = t.byteAt b := by
  simp only [State.byteAt, h]

end Sys2Proof.Machine
end

