-- ==== Sys2Proof/Laws/Ops.lean ====
section
/-! SUPPORT. What each shared operation over storage, stack, fetch and operands does, in closed form. -/

namespace Sys2Proof

theorem Params.notificationsOf_append (ps : Params) (l l' : List Machine.Access) :
    ps.notificationsOf (l ++ l') = ps.notificationsOf l ++ ps.notificationsOf l' := by
  simp [Params.notificationsOf]

theorem Params.notificationsOf_nil (ps : Params) : ps.notificationsOf [] = [] := rfl

theorem Params.notificationsOf_cons (ps : Params) (acc : Machine.Access) (l : List Machine.Access) :
    ps.notificationsOf (acc :: l) = ps.notificationsOf [acc] ++ ps.notificationsOf l := by
  simp [Params.notificationsOf]

/-- A range holds an address when one of its intervals does, ends included (log entry 6). -/
theorem Registration.covers_iff (r : Registration) (a : Word) :
    r.covers a = true ↔ ∃ iv ∈ r.range, iv.first.toNat ≤ a.toNat ∧ a.toNat ≤ iv.last.toNat := by
  simp [Registration.covers, AddrInterval.contains]

/-- Every notification is to a registered observer whose range contains the address (R53). -/
theorem Params.notificationsOf_truthful (ps : Params) (l : List Machine.Access) :
    (ps.notificationsOf l).all
      (fun e => ps.observers.any (fun r => (r.observer == e.observer) && r.covers e.access.addr)) = true := by
  simp only [Params.notificationsOf, Params.notifications, List.all_eq_true, List.any_eq_true, List.mem_flatMap,
    List.mem_map, List.mem_filter]
  rintro e ⟨acc, -, r, ⟨hr, hc⟩, rfl⟩
  exact ⟨r, hr, by simp [hc]⟩

namespace Machine

theorem toNat_lt_65536 (a : Word) : a.toNat < 65536 := a.isLt

/-! ### Storage -/

theorem State.byteAt_write {s : State} (h : s.mem.wf = true) (a b : Word) (v : Byte) :
    (s.mem.write a.toNat v).read b.toNat = if b = a then v else s.byteAt b := by
  rw [Memory.read_write _ _ _ h, State.byteAt]
  simp only [BitVec.toNat_inj]

theorem State.byteAt_writeByte {s : State} (h : s.mem.wf = true) (a b : Word) (v : Byte) :
    (s.writeByte a v).byteAt b = if b = a then v else s.byteAt b := State.byteAt_write h a b v

theorem State.byteAt_push {s : State} (h : s.mem.wf = true) (v : Byte) (b : Word) :
    (s.push v).byteAt b = if b = stackAddr s.sp then v else s.byteAt b := State.byteAt_write h _ b v

theorem State.wf_writeByte {s : State} (h : s.mem.wf = true) (a : Word) (v : Byte) : (s.writeByte a v).mem.wf = true :=
  Memory.wf_write h a.isLt

theorem State.wf_push {s : State} (h : s.mem.wf = true) (v : Byte) : (s.push v).mem.wf = true := Memory.wf_write h (BitVec.isLt _)

theorem State.wf_push16 {s : State} (h : s.mem.wf = true) (w : Word) : (s.push16 w).mem.wf = true :=
  State.wf_push (State.wf_push h _) _

theorem State.wf_hostLoad (s : State) (image : List Byte) : (s.hostLoad image).mem.wf = true := Memory.wf_ofImage image

/-- The host's placing of bytes keeps the canonical form. -/
theorem State.wf_placeBytes (bytes : List Byte) {s : State} (h : s.mem.wf = true) (a : Word) :
    (s.placeBytes a bytes).mem.wf = true := by
  induction bytes generalizing s a with
  | nil => exact h
  | cons b bs ih => exact ih (s := { s with mem := s.mem.write a.toNat b }) (Memory.wf_write h a.isLt) _

/-! ### Words and stack addresses -/

/-- A word taken apart and put together again. -/
theorem join_hi_lo (w : Word) : join (hi w) (lo w) = w := by
  rw [join, hi, lo, BitVec.extractLsb'_append_extractLsb'_eq_extractLsb' (by decide)]
  simp

theorem join_toNat (h l : Byte) : (join h l).toNat = h.toNat * 256 + l.toNat := by
  rw [join, BitVec.toNat_append, ← Nat.shiftLeft_add_eq_or_of_lt l.isLt, Nat.shiftLeft_eq]

theorem lo_join (h l : Byte) : lo (join h l) = l := by
  apply BitVec.eq_of_toNat_eq
  have := join_toNat h l
  have := l.isLt
  rw [lo, BitVec.extractLsb'_toNat, Nat.shiftRight_zero]
  omega

theorem hi_join (h l : Byte) : hi (join h l) = h := by
  apply BitVec.eq_of_toNat_eq
  have := join_toNat h l
  have := l.isLt
  have := h.isLt
  rw [hi, BitVec.extractLsb'_toNat, Nat.shiftRight_eq_div_pow]
  omega

theorem stackAddr_toNat (sp : Byte) : (stackAddr sp).toNat = 256 + sp.toNat := by
  revert sp; decide

theorem stackAddr_inj {p q : Byte} : stackAddr p = stackAddr q ↔ p = q := by
  constructor
  · intro h
    have := congrArg BitVec.toNat h
    rw [stackAddr_toNat, stackAddr_toNat] at this
    exact BitVec.eq_of_toNat_eq (by omega)
  · rintro rfl; rfl

theorem region_stackAddr (sp : Byte) : region (stackAddr sp) = .stackPage := by
  have h := sp.isLt
  unfold region
  rw [stackAddr_toNat, if_neg (by omega), if_pos (by omega)]

theorem stackAddr_ne {p q : Byte} (h : p ≠ q) : stackAddr p ≠ stackAddr q := fun e => h (stackAddr_inj.mp e)

theorem State.observed_append (s : State) (l l' : List Access) :
    s.observed l ++ s.params.notificationsOf l' = s.observed (l ++ l') := by
  simp only [State.observed, List.append_assoc, Params.notificationsOf_append]

/-! ### Fetch -/

theorem State.fetchReads_zero (s : State) : s.fetchReads 0 = [] := rfl

theorem State.fetchReads_one (s : State) : s.fetchReads 1 = [.onRead s.pc] := by
  simp [State.fetchReads]

theorem State.fetchReads_succ (s : State) (n : Nat) :
    s.fetchReads (n + 1) = .onRead s.pc :: s.fetch8.2.fetchReads n := by
  simp only [State.fetchReads, List.range_succ_eq_map, List.map_cons, List.map_map, State.fetch8_snd_pc]
  congr 1
  · simp
  · refine List.map_congr_left fun k _ => ?_
    simp only [Function.comp, Access.onRead.injEq]
    rw [BitVec.add_assoc]
    congr 1
    apply BitVec.eq_of_toNat_eq
    simp [Nat.add_comm]

/-- A fetch of `n` bytes in closed form: PC moves past them, their reads go to the trace, nothing else changes. -/
theorem State.fetch_eq (n : Nat) (s : State) :
    s.fetch n = { s with pc := s.pc + BitVec.ofNat 16 n, trace := s.observed (s.fetchReads n) } := by
  induction n generalizing s with
  | zero => simp [State.fetch, State.observed, State.fetchReads_zero, Params.notificationsOf_nil]
  | succ n ih =>
    rw [State.fetch, ih]
    simp only [State.observed, State.fetchReads_succ, State.fetch8_snd_pc, State.fetch8_snd_trace,
      State.fetch8_snd_params, State.fetch8_snd_a, State.fetch8_snd_x, State.fetch8_snd_y, State.fetch8_snd_sp,
      State.fetch8_snd_p, State.fetch8_snd_mem, State.fetch8_snd_run]
    congr 1
    · rw [BitVec.add_assoc]
      congr 1
      apply BitVec.eq_of_toNat_eq
      simp [Nat.add_comm]
    · rw [List.append_assoc, ← Params.notificationsOf_cons]

theorem State.fetch_fetch (m n : Nat) (s : State) : (s.fetch m).fetch n = s.fetch (m + n) := by
  induction m generalizing s with
  | zero => rw [Nat.zero_add]; rfl
  | succ m ih => rw [Nat.succ_add]; exact ih s.fetch8.2

theorem State.opcodeFetched_fetch (n : Nat) (s : State) : s.opcodeFetched.fetch n = s.fetch (1 + n) :=
  State.fetch_fetch 1 n s

/-- Fetching all of an instruction is `past` with no further access. -/
theorem State.fetch_size (i : Instr) (s : State) : s.fetch i.size = s.past i [] := by
  rw [State.fetch_eq, State.past, List.append_nil]

theorem State.past_record (s : State) (i : Instr) (l l' : List Access) : (s.past i l).record l' = s.past i (l ++ l') := by
  simp only [State.record, State.past, State.observed, ← List.append_assoc, Params.notificationsOf_append]

end Machine

/-! ### Operands -/

open Machine

theorem zeroPagePointer_of_mem {s t : State} (h : s.mem = t.mem) (p : Byte) : zeroPagePointer s p = zeroPagePointer t p := by
  simp only [zeroPagePointer, State.byteAt, h]

/-- The effective address depends on X, Y and storage alone. -/
theorem MemOperand.ea_of_eq (m : MemOperand) {s t : State} (hx : s.x = t.x) (hy : s.y = t.y) (hm : s.mem = t.mem) :
    m.ea s = m.ea t := by
  cases m <;> simp [MemOperand.ea, hx, hy, zeroPagePointer_of_mem hm]

theorem MemOperand.pointerReads_of_eq (m : MemOperand) {s t : State} (hx : s.x = t.x) :
    m.pointerReads s = m.pointerReads t := by
  cases m <;> simp [MemOperand.pointerReads, MemOperand.pointerCells, hx]

@[simp] theorem MemOperand.ea_opcodeFetched (m : MemOperand) (s : State) : m.ea s.opcodeFetched = m.ea s := m.ea_of_eq rfl rfl rfl

/-- Resolving an effective address after the opcode fetch: the operand bytes and the pointer are read, nothing else. -/
theorem MemOperand.resolve_eq {i : Instr} {m : MemOperand} (h : i.operand = .memory m) (s : State) :
    m.resolve s.opcodeFetched = (m.ea s, s.past i (m.pointerReads s)) := by
  have hs : i.size = 1 + m.width := by simp [Instr.size, h, Operand.width]
  rw [MemOperand.resolve, State.opcodeFetched_fetch, ← hs, State.fetch_size, State.past_record, List.nil_append,
    MemOperand.ea_opcodeFetched]
  rw [show (m.pointerCells s.opcodeFetched).map Access.onRead = m.pointerReads s from m.pointerReads_of_eq rfl]

/-- Reading M after the opcode fetch: its value, and the reads that produce it. -/
theorem Source.read_eq {i : Instr} {src : Source} (h : i.operand = src.operand) (s : State) :
    src.read s.opcodeFetched = (src.value s, s.past i (src.reads s)) := by
  cases src with
  | immediate v =>
    have hs : i.size = 1 + 1 := by simp [Instr.size, h, Source.operand, Operand.width]
    simp only [Source.read, Source.value, Source.reads, State.opcodeFetched_fetch]
    rw [← hs, State.fetch_size]
  | memory m =>
    simp only [Source.read, MemOperand.resolve_eq (show i.operand = .memory m from h), State.readByte, State.past_record]
    rfl

/-- Resolving a branch operand after the opcode fetch. -/
theorem BranchArg.resolve_eq {i : Instr} {t : BranchArg} (h : i.operand = .relative t) (s : State) :
    t.resolve s.opcodeFetched = (t.target s, s.past i []) := by
  have hs : i.size = 1 + t.width := by simp [Instr.size, h, Operand.width]
  simp only [BranchArg.resolve, State.opcodeFetched_fetch, ← hs, State.fetch_size]
  cases t <;> simp [BranchArg.target, hs, BranchArg.width]

end Sys2Proof
end

