-- ==== Sys2Proof/Laws/Exec.lean ====
section
/-! SUPPORT. The shared operations of the families in closed form: what each leaves in the state, for the instruction
whose operand it is given. -/

namespace Sys2Proof.Machine

variable {i : Instr} {src : Source} {m : MemOperand} {t : BranchArg}

theorem loadA_eq (h : i.operand = src.operand) (s : State) :
    loadA src s = { s.past i (src.reads s) with a := src.value s, p := s.p.setZN (src.value s) } := by
  simp only [loadA, Source.read_eq h]; rfl

theorem loadX_eq (h : i.operand = src.operand) (s : State) :
    loadX src s = { s.past i (src.reads s) with x := src.value s, p := s.p.setZN (src.value s) } := by
  simp only [loadX, Source.read_eq h]; rfl

theorem loadY_eq (h : i.operand = src.operand) (s : State) :
    loadY src s = { s.past i (src.reads s) with y := src.value s, p := s.p.setZN (src.value s) } := by
  simp only [loadY, Source.read_eq h]; rfl

theorem storeByte_eq (h : i.operand = .memory m) (v : Byte) (s : State) :
    storeByte v m s =
      { s.past i (m.pointerReads s ++ [.onWrite (m.ea s) v]) with mem := s.mem.write (m.ea s).toNat v } := by
  simp only [storeByte, MemOperand.resolve_eq h, State.writeByte]
  exact congrArg (fun u : State => { u with mem := s.mem.write (m.ea s).toNat v }) (State.past_record s i _ _)

theorem addWithCarry_decimal (opcode : Byte) (change : Byte → Byte) (src : Source) {s : State} (hd : s.p.d = true) :
    addWithCarry opcode change src s =
      { s with run := .faulted .unsupportedFeature s.pc opcode, trace := s.observed [.onRead s.pc] } := by
  simp only [addWithCarry, hd, if_true]; rfl

theorem addWithCarry_eq (h : i.operand = src.operand) (opcode : Byte) (change : Byte → Byte) {s : State}
    (hd : s.p.d = false) :
    addWithCarry opcode change src s =
      { s.past i (src.reads s) with
        a := adcResult s.a (change (src.value s)) s.p.c, p := s.p.afterAdc s.a (change (src.value s)) } := by
  simp only [addWithCarry, hd, Source.read_eq h, Bool.false_eq_true, if_false]; rfl

theorem compareWith_eq (h : i.operand = src.operand) (r : Byte) (s : State) :
    compareWith r src s = { s.past i (src.reads s) with p := s.p.afterCompare r (src.value s) } := by
  simp only [compareWith, Source.read_eq h]; rfl

theorem combineA_eq (h : i.operand = src.operand) (f : Byte → Byte → Byte) (s : State) :
    combineA f src s =
      { s.past i (src.reads s) with a := f s.a (src.value s), p := s.p.setZN (f s.a (src.value s)) } := by
  simp only [combineA, Source.read_eq h]; rfl

theorem testBits_eq (h : i.operand = .memory m) (s : State) :
    testBits m s =
      { s.past i (m.pointerReads s ++ [.onRead (m.ea s)]) with p := s.p.afterBit s.a (s.byteAt (m.ea s)) } := by
  simp only [testBits, Source.read_eq (src := .memory m) h]; rfl

theorem modifyByte_eq (h : i.operand = .memory m) (f : Byte → Byte) (s : State) :
    modifyByte f m s =
      { s.past i (m.pointerReads s ++ [.onRead (m.ea s), .onWrite (m.ea s) (f (s.byteAt (m.ea s)))]) with
        mem := s.mem.write (m.ea s).toNat (f (s.byteAt (m.ea s)))
        p := s.p.setZN (f (s.byteAt (m.ea s))) } := by
  have hr : s.past i (m.pointerReads s ++ [.onRead (m.ea s), .onWrite (m.ea s) (f (s.byteAt (m.ea s)))]) =
      ((s.past i (m.pointerReads s)).record [.onRead (m.ea s)]).record [.onWrite (m.ea s) (f (s.byteAt (m.ea s)))] := by
    rw [State.past_record, State.past_record, List.append_assoc]; rfl
  rw [hr]
  simp only [modifyByte, MemOperand.resolve_eq h]; rfl

theorem shiftTarget_accumulator (h : i.operand = .accumulator) (f : Byte → Bool → Byte × Bool) (s : State) :
    shiftTarget f .accumulator s =
      { s.past i [] with a := (f s.a s.p.c).1, p := s.p.afterShift (f s.a s.p.c).1 (f s.a s.p.c).2 } := by
  have hs : i.size = 1 := by simp [Instr.size, h, Operand.width]
  rw [← State.fetch_size, hs]; rfl

theorem shiftTarget_memory (h : i.operand = .memory m) (f : Byte → Bool → Byte × Bool) (s : State) :
    shiftTarget f (.memory m) s =
      { s.past i (m.pointerReads s ++
          [.onRead (m.ea s), .onWrite (m.ea s) (f (s.byteAt (m.ea s)) s.p.c).1]) with
        mem := s.mem.write (m.ea s).toNat (f (s.byteAt (m.ea s)) s.p.c).1
        p := s.p.afterShift (f (s.byteAt (m.ea s)) s.p.c).1 (f (s.byteAt (m.ea s)) s.p.c).2 } := by
  have hr (v : Byte) : s.past i (m.pointerReads s ++ [.onRead (m.ea s), .onWrite (m.ea s) v]) =
      ((s.past i (m.pointerReads s)).record [.onRead (m.ea s)]).record [.onWrite (m.ea s) v] := by
    rw [State.past_record, State.past_record, List.append_assoc]; rfl
  rw [hr]
  simp only [shiftTarget, MemOperand.resolve_eq h]; rfl

theorem branchIf_eq (h : i.operand = .relative t) (cond : Bool) (s : State) :
    branchIf cond t s = if cond then { s.past i [] with pc := t.target s } else s.past i [] := by
  simp only [branchIf, BranchArg.resolve_eq h]

/-- An instruction of one byte: its opcode fetch is all of it. -/
theorem State.opcodeFetched_eq_past (h : i.size = 1) (s : State) : s.opcodeFetched = s.past i [] := by
  rw [← State.fetch_size, h]; rfl

/-- An instruction of three bytes whose operand is one word. -/
theorem State.opcodeFetched_fetch_two (h : i.size = 3) (s : State) : s.opcodeFetched.fetch 2 = s.past i [] := by
  rw [State.opcodeFetched_fetch, ← State.fetch_size, h]

theorem jumpTo_eq (h : i.size = 3) (w : Word) (s : State) : jumpTo w s = { s.past i [] with pc := w } := by
  simp only [jumpTo, State.opcodeFetched_fetch_two h]

theorem jumpThrough_eq (h : i.size = 3) (opcode : Byte) {w : Word} (hw : lo w ≠ 0xFF#8) (s : State) :
    jumpThrough opcode w s =
      { s.past i [.onRead w, .onRead (w + 1)] with pc := join (s.byteAt (w + 1)) (s.byteAt w) } := by
  have hr : s.past i [.onRead w, .onRead (w + 1)] = ((s.past i []).record [.onRead w]).record [.onRead (w + 1)] := by
    rw [State.past_record, State.past_record]; rfl
  rw [hr]
  simp only [jumpThrough, State.opcodeFetched_fetch_two h, if_neg hw]; rfl

theorem jumpThrough_wrap (opcode : Byte) {w : Word} (hw : lo w = 0xFF#8) (s : State) :
    jumpThrough opcode w s =
      { s with run := .faulted .unsupportedFeature s.pc opcode, trace := s.observed (s.fetchReads 3) } := by
  simp only [jumpThrough, if_pos hw]
  rw [State.opcodeFetched_fetch, State.fetch_eq]; rfl

/-- The pushes of a word, in closed form. -/
theorem State.push16_eq (s : State) (w : Word) :
    s.push16 w =
      { s with
        sp := s.sp - 1 - 1
        mem := (s.mem.write (stackAddr s.sp).toNat (hi w)).write (stackAddr (s.sp - 1)).toNat (lo w)
        trace := s.observed [.onWrite (stackAddr s.sp) (hi w), .onWrite (stackAddr (s.sp - 1)) (lo w)] } := by
  have : s.observed [.onWrite (stackAddr s.sp) (hi w), .onWrite (stackAddr (s.sp - 1)) (lo w)] =
      (s.observed [.onWrite (stackAddr s.sp) (hi w)]) ++ s.params.notificationsOf [.onWrite (stackAddr (s.sp - 1)) (lo w)] := by
    simp only [State.observed, List.append_assoc]
    rw [← Params.notificationsOf_append]; rfl
  rw [this]; rfl

/-- What the storage holds after a word is pushed. -/
theorem State.byteAt_push16 {s : State} (h : s.mem.wf = true) (w : Word) (b : Word) :
    (s.push16 w).byteAt b =
      if b = stackAddr s.sp then hi w else if b = stackAddr (s.sp - 1) then lo w else s.byteAt b := by
  have hne : stackAddr s.sp ≠ stackAddr (s.sp - 1) := fun e => by
    have := stackAddr_inj.mp e; bv_omega
  have h2 := State.byteAt_push (State.wf_push h (hi w)) (lo w) b
  rw [State.byteAt_push h, show (s.push (hi w)).sp = s.sp - 1 from rfl] at h2
  rw [State.push16, h2]
  by_cases h1 : b = stackAddr s.sp
  · rw [if_pos h1, if_pos h1, if_neg (h1 ▸ hne)]
  · rw [if_neg h1, if_neg h1]

/-- Pushing a word after an instruction's other accesses, in closed form. -/
theorem State.past_push16 (s : State) (l : List Access) (w : Word) :
    (s.past i l).push16 w =
      { s.past i (l ++ [.onWrite (stackAddr s.sp) (hi w), .onWrite (stackAddr (s.sp - 1)) (lo w)]) with
        sp := s.sp - 1 - 1, mem := (s.push16 w).mem } := by
  rw [← State.past_record, State.push16_eq, State.push16_eq]; rfl

theorem callTo_eq (h : i.size = 3) (w : Word) (s : State) :
    callTo w s =
      { s.past i [.onWrite (stackAddr s.sp) (hi (s.pc + 2)), .onWrite (stackAddr (s.sp - 1)) (lo (s.pc + 2))] with
        sp := s.sp - 2, mem := (s.push16 (s.pc + 2)).mem, pc := w } := by
  have hpc : s.pc + BitVec.ofNat 16 3 - 1 = s.pc + 2 := by bv_omega
  have hsp : s.sp - 1 - 1 = s.sp - 2 := by bv_omega
  simp only [callTo, State.opcodeFetched_fetch_two h, State.past_pc, h, hpc, State.past_push16, hsp, List.nil_append]

theorem withStatus_eq (h : i.size = 1) (f : Status → Status) (s : State) :
    withStatus f s = { s.past i [] with p := f s.p } := by
  simp only [withStatus, State.opcodeFetched_eq_past h]; rfl

/-! ### Stack, trap entry and return -/

theorem State.opcodeFetched_push (h : i.size = 1) (v : Byte) (s : State) :
    s.opcodeFetched.push v =
      { s.past i [.onWrite (stackAddr s.sp) v] with sp := s.sp - 1, mem := s.mem.write (stackAddr s.sp).toNat v } := by
  rw [State.opcodeFetched_eq_past h, ← List.nil_append [Access.onWrite (stackAddr s.sp) v], ← State.past_record]; rfl

theorem State.opcodeFetched_pull (h : i.size = 1) (s : State) :
    s.opcodeFetched.pull.2 = { s.past i [.onRead (stackAddr (s.sp + 1))] with sp := s.sp + 1 } := by
  rw [State.opcodeFetched_eq_past h, ← List.nil_append [Access.onRead (stackAddr (s.sp + 1))], ← State.past_record]; rfl

/-- Pulling a word, in closed form. -/
theorem State.pull16_eq (s : State) :
    s.pull16 =
      (join (s.byteAt (stackAddr (s.sp + 2))) (s.byteAt (stackAddr (s.sp + 1))),
        { s with
          sp := s.sp + 2
          trace := s.observed ([.onRead (stackAddr (s.sp + 1))] ++ [.onRead (stackAddr (s.sp + 2))]) }) := by
  have h2 : s.sp + 1 + 1 = s.sp + 2 := by bv_omega
  rw [← h2, ← State.observed_append]; rfl

theorem returnFromCall_eq (h : i.size = 1) (s : State) :
    returnFromCall s =
      { s.past i [.onRead (stackAddr (s.sp + 1)), .onRead (stackAddr (s.sp + 2))] with
        sp := s.sp + 2, pc := join (s.byteAt (stackAddr (s.sp + 2))) (s.byteAt (stackAddr (s.sp + 1))) + 1 } := by
  have hr := State.past_record s i [] ([.onRead (stackAddr (s.sp + 1))] ++ [.onRead (stackAddr (s.sp + 2))])
  rw [List.nil_append] at hr
  rw [returnFromCall, State.opcodeFetched_eq_past h, State.pull16_eq]
  exact congrArg (fun u : State => { u with
    sp := s.sp + 2, pc := join (s.byteAt (stackAddr (s.sp + 2))) (s.byteAt (stackAddr (s.sp + 1))) + 1 }) hr

/-- Trap entry in closed form: three pushes, the two vector reads, PC and B. -/
theorem trapEntry_eq (h : i.size = 1) (w : Word) (s : State) :
    trapEntry w s.opcodeFetched =
      { s.past i ([.onWrite (stackAddr s.sp) s.p.pack, .onWrite (stackAddr (s.sp - 1)) (hi w),
            .onWrite (stackAddr (s.sp - 2)) (lo w), .onRead brkVector, .onRead (brkVector + 1)]) with
        sp := s.sp - 3
        mem := ((s.push s.p.pack).push16 w).mem
        pc := join (((s.push s.p.pack).push16 w).byteAt (brkVector + 1)) (((s.push s.p.pack).push16 w).byteAt brkVector)
        p := { s.p with b := true } } := by
  have h2 : s.sp - 1 - 1 = s.sp - 2 := by bv_omega
  have h3 : s.sp - 2 - 1 = s.sp - 3 := by bv_omega
  rw [State.opcodeFetched_eq_past h]
  simp only [trapEntry, State.push16, State.push, State.writeByte, State.read16, State.readByte, State.record,
    State.byteAt, State.past, State.observed, h2, h3, List.append_assoc, ← Params.notificationsOf_append]
  rfl

/-- Trap return in closed form. -/
theorem trapReturn_eq (h : i.size = 1) (s : State) :
    trapReturn s.opcodeFetched =
      { s.past i [.onRead (stackAddr (s.sp + 1)), .onRead (stackAddr (s.sp + 2)), .onRead (stackAddr (s.sp + 3))] with
        sp := s.sp + 3
        pc := join (s.byteAt (stackAddr (s.sp + 2))) (s.byteAt (stackAddr (s.sp + 1)))
        p := Status.unpack (s.byteAt (stackAddr (s.sp + 3))) } := by
  have h2 : s.sp + 1 + 1 = s.sp + 2 := by bv_omega
  have h3 : s.sp + 2 + 1 = s.sp + 3 := by bv_omega
  rw [State.opcodeFetched_eq_past h]
  simp only [trapReturn, State.pull16, State.pull, State.readByte, State.record, State.byteAt, State.past,
    State.observed, h2, h3, List.append_assoc, ← Params.notificationsOf_append]
  rfl

end Sys2Proof.Machine
end

