-- ==== Sys2Proof/Laws/Forms.lean ====
section
/-! SUPPORT. What executing an instruction can do, said once: every instruction answers a next state, which has one of
the forms below. Proofs about all instructions split on the form, not on the 151 constructors. -/

namespace Sys2Proof.Machine

/-- The flag a branch tests and the polarity (R201 to R208). -/
def BranchTest (mn : Mnemonic) (p : Status) (cond : Bool) : Prop :=
  (mn = .bcc ∧ cond = !p.c) ∨ (mn = .bcs ∧ cond = p.c) ∨ (mn = .beq ∧ cond = p.z) ∨ (mn = .bmi ∧ cond = p.n) ∨
  (mn = .bne ∧ cond = !p.z) ∨ (mn = .bpl ∧ cond = !p.n) ∨ (mn = .bvc ∧ cond = !p.v) ∨ (mn = .bvs ∧ cond = p.v)

/-- The change of a flag instruction (R240 to R246). -/
def FlagChange (mn : Mnemonic) (p q : Status) : Prop :=
  (mn = .clc ∧ q = { p with c := false }) ∨ (mn = .sec ∧ q = { p with c := true }) ∨
  (mn = .cli ∧ q = { p with i := false }) ∨ (mn = .sei ∧ q = { p with i := true }) ∨
  (mn = .cld ∧ q = { p with d := false }) ∨ (mn = .sed ∧ q = { p with d := true }) ∨
  (mn = .clv ∧ q = { p with v := false })

/-- The bits a shift computes (R180 to R183). -/
def ShiftBits (mn : Mnemonic) (f : Byte → Bool → Byte × Bool) : Prop :=
  (mn = .asl ∧ f = aslBits) ∨ (mn = .lsr ∧ f = lsrBits) ∨ (mn = .rol ∧ f = rolBits) ∨ (mn = .ror ∧ f = rorBits)

/-- `ExecForm i s t`: the ways `exec i s` answers `t`. -/
inductive ExecForm (i : Instr) (s : State) : State → Prop where
  | lda (src : Source) (hm : i.mnemonic = .lda) (h : i.operand = src.operand) : ExecForm i s (loadA src s)
  | ldx (src : Source) (hm : i.mnemonic = .ldx) (h : i.operand = src.operand) : ExecForm i s (loadX src s)
  | ldy (src : Source) (hm : i.mnemonic = .ldy) (h : i.operand = src.operand) : ExecForm i s (loadY src s)
  | store (v : Byte) (m : MemOperand)
      (hm : (i.mnemonic = .sta ∧ v = s.a) ∨ (i.mnemonic = .stx ∧ v = s.x) ∨ (i.mnemonic = .sty ∧ v = s.y))
      (h : i.operand = .memory m) : ExecForm i s (storeByte v m s)
  | tax (hm : i.mnemonic = .tax) (hi : i = .tax) : ExecForm i s { s.past i [] with x := s.a, p := s.p.setZN s.a }
  | tay (hm : i.mnemonic = .tay) (hi : i = .tay) : ExecForm i s { s.past i [] with y := s.a, p := s.p.setZN s.a }
  | txa (hm : i.mnemonic = .txa) (hi : i = .txa) : ExecForm i s { s.past i [] with a := s.x, p := s.p.setZN s.x }
  | tya (hm : i.mnemonic = .tya) (hi : i = .tya) : ExecForm i s { s.past i [] with a := s.y, p := s.p.setZN s.y }
  | tsx (hm : i.mnemonic = .tsx) (hi : i = .tsx) : ExecForm i s { s.past i [] with x := s.sp, p := s.p.setZN s.sp }
  | txs (hm : i.mnemonic = .txs) (hi : i = .txs) : ExecForm i s { s.past i [] with sp := s.x }
  | arithmetic (change : Byte → Byte) (src : Source)
      (hm : (i.mnemonic = .adc ∧ change = id) ∨ (i.mnemonic = .sbc ∧ change = fun m => ~~~m))
      (h : i.operand = src.operand) : ExecForm i s (addWithCarry i.opcode change src s)
  | compare (r : Byte) (src : Source)
      (hm : (i.mnemonic = .cmp ∧ r = s.a) ∨ (i.mnemonic = .cpx ∧ r = s.x) ∨ (i.mnemonic = .cpy ∧ r = s.y))
      (h : i.operand = src.operand) : ExecForm i s (compareWith r src s)
  | incDec (f : Byte → Byte) (m : MemOperand)
      (hm : (i.mnemonic = .inc ∧ f = fun v => v + 1) ∨ (i.mnemonic = .dec ∧ f = fun v => v - 1))
      (h : i.operand = .memory m) : ExecForm i s (modifyByte f m s)
  | countX (v : Byte) (hm : (i.mnemonic = .inx ∧ v = s.x + 1) ∨ (i.mnemonic = .dex ∧ v = s.x - 1)) (hs : i.size = 1) :
      ExecForm i s { s.past i [] with x := v, p := s.p.setZN v }
  | countY (v : Byte) (hm : (i.mnemonic = .iny ∧ v = s.y + 1) ∨ (i.mnemonic = .dey ∧ v = s.y - 1)) (hs : i.size = 1) :
      ExecForm i s { s.past i [] with y := v, p := s.p.setZN v }
  | shift (f : Byte → Bool → Byte × Bool) (t : Target) (hm : ShiftBits i.mnemonic f) (h : i.operand = t.operand) :
      ExecForm i s (shiftTarget f t s)
  | logic (f : Byte → Byte → Byte) (src : Source)
      (hm : (i.mnemonic = .and ∧ f = fun a m => a &&& m) ∨ (i.mnemonic = .ora ∧ f = fun a m => a ||| m) ∨
        (i.mnemonic = .eor ∧ f = fun a m => a ^^^ m))
      (h : i.operand = src.operand) : ExecForm i s (combineA f src s)
  | bit (m : MemOperand) (hm : i.mnemonic = .bit) (h : i.operand = .memory m) : ExecForm i s (testBits m s)
  | branch (cond : Bool) (t : BranchArg) (hm : BranchTest i.mnemonic s.p cond) (h : i.operand = .relative t) :
      ExecForm i s (branchIf cond t s)
  | jump (w : Word) (hm : i.mnemonic = .jmp) (hi : i = .jmpAbs w) : ExecForm i s (jumpTo w s)
  | jumpThrough (w : Word) (hm : i.mnemonic = .jmp) (hi : i = .jmpInd w) : ExecForm i s (jumpThrough i.opcode w s)
  | call (w : Word) (hm : i.mnemonic = .jsr) (hi : i = .jsrAbs w) : ExecForm i s (callTo w s)
  | rts (hm : i.mnemonic = .rts) (hi : i = .rts) : ExecForm i s (returnFromCall s)
  | brk (hm : i.mnemonic = .brk) (hi : i = .brk) : ExecForm i s (trapEntry (s.pc + 2) s.opcodeFetched)
  | rti (hm : i.mnemonic = .rti) (hi : i = .rti) : ExecForm i s (trapReturn s.opcodeFetched)
  | push (v : Byte) (hm : (i.mnemonic = .pha ∧ v = s.a) ∨ (i.mnemonic = .php ∧ v = s.p.pack)) (hs : i.size = 1) : ExecForm i s (s.opcodeFetched.push v)
  | pla (hm : i.mnemonic = .pla) (hi : i = .pla) : ExecForm i s { s.opcodeFetched.pull.2 with
      a := s.byteAt (stackAddr (s.sp + 1)), p := s.p.setZN (s.byteAt (stackAddr (s.sp + 1))) }
  | plp (hm : i.mnemonic = .plp) (hi : i = .plp) : ExecForm i s { s.opcodeFetched.pull.2 with
      p := Status.unpack (s.byteAt (stackAddr (s.sp + 1))) }
  | flag (q : Status) (hm : FlagChange i.mnemonic s.p q) (hs : i.size = 1) : ExecForm i s { s.past i [] with p := q }
  | nop (hm : i.mnemonic = .nop) (hi : i = .nop) : ExecForm i s (s.past i [])

/-- Every instruction answers a next state, of one of the forms. -/
theorem exec_form (i : Instr) (s : State) : ∃ t, exec i s = .next t ∧ ExecForm i s t := by
  have one {i : Instr} (h : i.size = 1) : s.opcodeFetched = s.past i [] := State.opcodeFetched_eq_past h s
  cases i with
  | ldaImm v => exact ⟨_, rfl, .lda _ rfl (show _ = Source.operand (.immediate v) from rfl)⟩
  | ldaZp nn => exact ⟨_, rfl, .lda _ rfl (show _ = Source.operand (.memory (.zeroPage nn)) from rfl)⟩
  | ldaZpX nn => exact ⟨_, rfl, .lda _ rfl (show _ = Source.operand (.memory (.zeroPageX nn)) from rfl)⟩
  | ldaAbs w => exact ⟨_, rfl, .lda _ rfl (show _ = Source.operand (.memory (.absolute w)) from rfl)⟩
  | ldaAbsX w => exact ⟨_, rfl, .lda _ rfl (show _ = Source.operand (.memory (.absoluteX w)) from rfl)⟩
  | ldaAbsY w => exact ⟨_, rfl, .lda _ rfl (show _ = Source.operand (.memory (.absoluteY w)) from rfl)⟩
  | ldaIndX nn => exact ⟨_, rfl, .lda _ rfl (show _ = Source.operand (.memory (.indirectX nn)) from rfl)⟩
  | ldaIndY nn => exact ⟨_, rfl, .lda _ rfl (show _ = Source.operand (.memory (.indirectY nn)) from rfl)⟩
  | ldxImm v => exact ⟨_, rfl, .ldx _ rfl (show _ = Source.operand (.immediate v) from rfl)⟩
  | ldxZp nn => exact ⟨_, rfl, .ldx _ rfl (show _ = Source.operand (.memory (.zeroPage nn)) from rfl)⟩
  | ldxZpY nn => exact ⟨_, rfl, .ldx _ rfl (show _ = Source.operand (.memory (.zeroPageY nn)) from rfl)⟩
  | ldxAbs w => exact ⟨_, rfl, .ldx _ rfl (show _ = Source.operand (.memory (.absolute w)) from rfl)⟩
  | ldxAbsY w => exact ⟨_, rfl, .ldx _ rfl (show _ = Source.operand (.memory (.absoluteY w)) from rfl)⟩
  | ldyImm v => exact ⟨_, rfl, .ldy _ rfl (show _ = Source.operand (.immediate v) from rfl)⟩
  | ldyZp nn => exact ⟨_, rfl, .ldy _ rfl (show _ = Source.operand (.memory (.zeroPage nn)) from rfl)⟩
  | ldyZpX nn => exact ⟨_, rfl, .ldy _ rfl (show _ = Source.operand (.memory (.zeroPageX nn)) from rfl)⟩
  | ldyAbs w => exact ⟨_, rfl, .ldy _ rfl (show _ = Source.operand (.memory (.absolute w)) from rfl)⟩
  | ldyAbsX w => exact ⟨_, rfl, .ldy _ rfl (show _ = Source.operand (.memory (.absoluteX w)) from rfl)⟩
  | staZp nn => exact ⟨_, rfl, .store _ _ (.inl ⟨rfl, rfl⟩) rfl⟩
  | staZpX nn => exact ⟨_, rfl, .store _ _ (.inl ⟨rfl, rfl⟩) rfl⟩
  | staAbs w => exact ⟨_, rfl, .store _ _ (.inl ⟨rfl, rfl⟩) rfl⟩
  | staAbsX w => exact ⟨_, rfl, .store _ _ (.inl ⟨rfl, rfl⟩) rfl⟩
  | staAbsY w => exact ⟨_, rfl, .store _ _ (.inl ⟨rfl, rfl⟩) rfl⟩
  | staIndX nn => exact ⟨_, rfl, .store _ _ (.inl ⟨rfl, rfl⟩) rfl⟩
  | staIndY nn => exact ⟨_, rfl, .store _ _ (.inl ⟨rfl, rfl⟩) rfl⟩
  | stxZp nn => exact ⟨_, rfl, .store _ _ (.inr (.inl ⟨rfl, rfl⟩)) rfl⟩
  | stxZpY nn => exact ⟨_, rfl, .store _ _ (.inr (.inl ⟨rfl, rfl⟩)) rfl⟩
  | stxAbs w => exact ⟨_, rfl, .store _ _ (.inr (.inl ⟨rfl, rfl⟩)) rfl⟩
  | styZp nn => exact ⟨_, rfl, .store _ _ (.inr (.inr ⟨rfl, rfl⟩)) rfl⟩
  | styZpX nn => exact ⟨_, rfl, .store _ _ (.inr (.inr ⟨rfl, rfl⟩)) rfl⟩
  | styAbs w => exact ⟨_, rfl, .store _ _ (.inr (.inr ⟨rfl, rfl⟩)) rfl⟩
  | tax =>
    exact ⟨{ s.opcodeFetched with x := s.a, p := s.p.setZN s.a }, rfl, one (i := .tax) rfl ▸ .tax rfl rfl⟩
  | tay =>
    exact ⟨{ s.opcodeFetched with y := s.a, p := s.p.setZN s.a }, rfl, one (i := .tay) rfl ▸ .tay rfl rfl⟩
  | txa =>
    exact ⟨{ s.opcodeFetched with a := s.x, p := s.p.setZN s.x }, rfl, one (i := .txa) rfl ▸ .txa rfl rfl⟩
  | tya =>
    exact ⟨{ s.opcodeFetched with a := s.y, p := s.p.setZN s.y }, rfl, one (i := .tya) rfl ▸ .tya rfl rfl⟩
  | adcImm v => exact ⟨_, rfl, .arithmetic _ _ (.inl ⟨rfl, rfl⟩) (show _ = Source.operand (.immediate v) from rfl)⟩
  | adcZp nn => exact ⟨_, rfl, .arithmetic _ _ (.inl ⟨rfl, rfl⟩) (show _ = Source.operand (.memory (.zeroPage nn)) from rfl)⟩
  | adcZpX nn => exact ⟨_, rfl, .arithmetic _ _ (.inl ⟨rfl, rfl⟩) (show _ = Source.operand (.memory (.zeroPageX nn)) from rfl)⟩
  | adcAbs w => exact ⟨_, rfl, .arithmetic _ _ (.inl ⟨rfl, rfl⟩) (show _ = Source.operand (.memory (.absolute w)) from rfl)⟩
  | adcAbsX w => exact ⟨_, rfl, .arithmetic _ _ (.inl ⟨rfl, rfl⟩) (show _ = Source.operand (.memory (.absoluteX w)) from rfl)⟩
  | adcAbsY w => exact ⟨_, rfl, .arithmetic _ _ (.inl ⟨rfl, rfl⟩) (show _ = Source.operand (.memory (.absoluteY w)) from rfl)⟩
  | adcIndX nn => exact ⟨_, rfl, .arithmetic _ _ (.inl ⟨rfl, rfl⟩) (show _ = Source.operand (.memory (.indirectX nn)) from rfl)⟩
  | adcIndY nn => exact ⟨_, rfl, .arithmetic _ _ (.inl ⟨rfl, rfl⟩) (show _ = Source.operand (.memory (.indirectY nn)) from rfl)⟩
  | sbcImm v => exact ⟨_, rfl, .arithmetic _ _ (.inr ⟨rfl, rfl⟩) (show _ = Source.operand (.immediate v) from rfl)⟩
  | sbcZp nn => exact ⟨_, rfl, .arithmetic _ _ (.inr ⟨rfl, rfl⟩) (show _ = Source.operand (.memory (.zeroPage nn)) from rfl)⟩
  | sbcZpX nn => exact ⟨_, rfl, .arithmetic _ _ (.inr ⟨rfl, rfl⟩) (show _ = Source.operand (.memory (.zeroPageX nn)) from rfl)⟩
  | sbcAbs w => exact ⟨_, rfl, .arithmetic _ _ (.inr ⟨rfl, rfl⟩) (show _ = Source.operand (.memory (.absolute w)) from rfl)⟩
  | sbcAbsX w => exact ⟨_, rfl, .arithmetic _ _ (.inr ⟨rfl, rfl⟩) (show _ = Source.operand (.memory (.absoluteX w)) from rfl)⟩
  | sbcAbsY w => exact ⟨_, rfl, .arithmetic _ _ (.inr ⟨rfl, rfl⟩) (show _ = Source.operand (.memory (.absoluteY w)) from rfl)⟩
  | sbcIndX nn => exact ⟨_, rfl, .arithmetic _ _ (.inr ⟨rfl, rfl⟩) (show _ = Source.operand (.memory (.indirectX nn)) from rfl)⟩
  | sbcIndY nn => exact ⟨_, rfl, .arithmetic _ _ (.inr ⟨rfl, rfl⟩) (show _ = Source.operand (.memory (.indirectY nn)) from rfl)⟩
  | cmpImm v => exact ⟨_, rfl, .compare _ _ (.inl ⟨rfl, rfl⟩) (show _ = Source.operand (.immediate v) from rfl)⟩
  | cmpZp nn => exact ⟨_, rfl, .compare _ _ (.inl ⟨rfl, rfl⟩) (show _ = Source.operand (.memory (.zeroPage nn)) from rfl)⟩
  | cmpZpX nn => exact ⟨_, rfl, .compare _ _ (.inl ⟨rfl, rfl⟩) (show _ = Source.operand (.memory (.zeroPageX nn)) from rfl)⟩
  | cmpAbs w => exact ⟨_, rfl, .compare _ _ (.inl ⟨rfl, rfl⟩) (show _ = Source.operand (.memory (.absolute w)) from rfl)⟩
  | cmpAbsX w => exact ⟨_, rfl, .compare _ _ (.inl ⟨rfl, rfl⟩) (show _ = Source.operand (.memory (.absoluteX w)) from rfl)⟩
  | cmpAbsY w => exact ⟨_, rfl, .compare _ _ (.inl ⟨rfl, rfl⟩) (show _ = Source.operand (.memory (.absoluteY w)) from rfl)⟩
  | cmpIndX nn => exact ⟨_, rfl, .compare _ _ (.inl ⟨rfl, rfl⟩) (show _ = Source.operand (.memory (.indirectX nn)) from rfl)⟩
  | cmpIndY nn => exact ⟨_, rfl, .compare _ _ (.inl ⟨rfl, rfl⟩) (show _ = Source.operand (.memory (.indirectY nn)) from rfl)⟩
  | cpxImm v => exact ⟨_, rfl, .compare _ _ (.inr (.inl ⟨rfl, rfl⟩)) (show _ = Source.operand (.immediate v) from rfl)⟩
  | cpxZp nn => exact ⟨_, rfl, .compare _ _ (.inr (.inl ⟨rfl, rfl⟩)) (show _ = Source.operand (.memory (.zeroPage nn)) from rfl)⟩
  | cpxAbs w => exact ⟨_, rfl, .compare _ _ (.inr (.inl ⟨rfl, rfl⟩)) (show _ = Source.operand (.memory (.absolute w)) from rfl)⟩
  | cpyImm v => exact ⟨_, rfl, .compare _ _ (.inr (.inr ⟨rfl, rfl⟩)) (show _ = Source.operand (.immediate v) from rfl)⟩
  | cpyZp nn => exact ⟨_, rfl, .compare _ _ (.inr (.inr ⟨rfl, rfl⟩)) (show _ = Source.operand (.memory (.zeroPage nn)) from rfl)⟩
  | cpyAbs w => exact ⟨_, rfl, .compare _ _ (.inr (.inr ⟨rfl, rfl⟩)) (show _ = Source.operand (.memory (.absolute w)) from rfl)⟩
  | incZp nn => exact ⟨_, rfl, .incDec _ _ (.inl ⟨rfl, rfl⟩) rfl⟩
  | incZpX nn => exact ⟨_, rfl, .incDec _ _ (.inl ⟨rfl, rfl⟩) rfl⟩
  | incAbs w => exact ⟨_, rfl, .incDec _ _ (.inl ⟨rfl, rfl⟩) rfl⟩
  | incAbsX w => exact ⟨_, rfl, .incDec _ _ (.inl ⟨rfl, rfl⟩) rfl⟩
  | decZp nn => exact ⟨_, rfl, .incDec _ _ (.inr ⟨rfl, rfl⟩) rfl⟩
  | decZpX nn => exact ⟨_, rfl, .incDec _ _ (.inr ⟨rfl, rfl⟩) rfl⟩
  | decAbs w => exact ⟨_, rfl, .incDec _ _ (.inr ⟨rfl, rfl⟩) rfl⟩
  | decAbsX w => exact ⟨_, rfl, .incDec _ _ (.inr ⟨rfl, rfl⟩) rfl⟩
  | inx =>
    exact ⟨{ s.opcodeFetched with x := s.x + 1, p := s.p.setZN (s.x + 1) }, rfl, one (i := .inx) rfl ▸ .countX _ (.inl ⟨rfl, rfl⟩) rfl⟩
  | iny =>
    exact ⟨{ s.opcodeFetched with y := s.y + 1, p := s.p.setZN (s.y + 1) }, rfl, one (i := .iny) rfl ▸ .countY _ (.inl ⟨rfl, rfl⟩) rfl⟩
  | dex =>
    exact ⟨{ s.opcodeFetched with x := s.x - 1, p := s.p.setZN (s.x - 1) }, rfl, one (i := .dex) rfl ▸ .countX _ (.inr ⟨rfl, rfl⟩) rfl⟩
  | dey =>
    exact ⟨{ s.opcodeFetched with y := s.y - 1, p := s.p.setZN (s.y - 1) }, rfl, one (i := .dey) rfl ▸ .countY _ (.inr ⟨rfl, rfl⟩) rfl⟩
  | aslAcc => exact ⟨_, rfl, .shift _ _ (.inl ⟨rfl, rfl⟩) (show _ = Target.operand .accumulator from rfl)⟩
  | aslZp nn => exact ⟨_, rfl, .shift _ _ (.inl ⟨rfl, rfl⟩) (show _ = Target.operand (.memory (.zeroPage nn)) from rfl)⟩
  | aslZpX nn => exact ⟨_, rfl, .shift _ _ (.inl ⟨rfl, rfl⟩) (show _ = Target.operand (.memory (.zeroPageX nn)) from rfl)⟩
  | aslAbs w => exact ⟨_, rfl, .shift _ _ (.inl ⟨rfl, rfl⟩) (show _ = Target.operand (.memory (.absolute w)) from rfl)⟩
  | aslAbsX w => exact ⟨_, rfl, .shift _ _ (.inl ⟨rfl, rfl⟩) (show _ = Target.operand (.memory (.absoluteX w)) from rfl)⟩
  | lsrAcc => exact ⟨_, rfl, .shift _ _ (.inr (.inl ⟨rfl, rfl⟩)) (show _ = Target.operand .accumulator from rfl)⟩
  | lsrZp nn => exact ⟨_, rfl, .shift _ _ (.inr (.inl ⟨rfl, rfl⟩)) (show _ = Target.operand (.memory (.zeroPage nn)) from rfl)⟩
  | lsrZpX nn => exact ⟨_, rfl, .shift _ _ (.inr (.inl ⟨rfl, rfl⟩)) (show _ = Target.operand (.memory (.zeroPageX nn)) from rfl)⟩
  | lsrAbs w => exact ⟨_, rfl, .shift _ _ (.inr (.inl ⟨rfl, rfl⟩)) (show _ = Target.operand (.memory (.absolute w)) from rfl)⟩
  | lsrAbsX w => exact ⟨_, rfl, .shift _ _ (.inr (.inl ⟨rfl, rfl⟩)) (show _ = Target.operand (.memory (.absoluteX w)) from rfl)⟩
  | rolAcc => exact ⟨_, rfl, .shift _ _ (.inr (.inr (.inl ⟨rfl, rfl⟩))) (show _ = Target.operand .accumulator from rfl)⟩
  | rolZp nn => exact ⟨_, rfl, .shift _ _ (.inr (.inr (.inl ⟨rfl, rfl⟩))) (show _ = Target.operand (.memory (.zeroPage nn)) from rfl)⟩
  | rolZpX nn => exact ⟨_, rfl, .shift _ _ (.inr (.inr (.inl ⟨rfl, rfl⟩))) (show _ = Target.operand (.memory (.zeroPageX nn)) from rfl)⟩
  | rolAbs w => exact ⟨_, rfl, .shift _ _ (.inr (.inr (.inl ⟨rfl, rfl⟩))) (show _ = Target.operand (.memory (.absolute w)) from rfl)⟩
  | rolAbsX w => exact ⟨_, rfl, .shift _ _ (.inr (.inr (.inl ⟨rfl, rfl⟩))) (show _ = Target.operand (.memory (.absoluteX w)) from rfl)⟩
  | rorAcc => exact ⟨_, rfl, .shift _ _ (.inr (.inr (.inr ⟨rfl, rfl⟩))) (show _ = Target.operand .accumulator from rfl)⟩
  | rorZp nn => exact ⟨_, rfl, .shift _ _ (.inr (.inr (.inr ⟨rfl, rfl⟩))) (show _ = Target.operand (.memory (.zeroPage nn)) from rfl)⟩
  | rorZpX nn => exact ⟨_, rfl, .shift _ _ (.inr (.inr (.inr ⟨rfl, rfl⟩))) (show _ = Target.operand (.memory (.zeroPageX nn)) from rfl)⟩
  | rorAbs w => exact ⟨_, rfl, .shift _ _ (.inr (.inr (.inr ⟨rfl, rfl⟩))) (show _ = Target.operand (.memory (.absolute w)) from rfl)⟩
  | rorAbsX w => exact ⟨_, rfl, .shift _ _ (.inr (.inr (.inr ⟨rfl, rfl⟩))) (show _ = Target.operand (.memory (.absoluteX w)) from rfl)⟩
  | andImm v => exact ⟨_, rfl, .logic _ _ (.inl ⟨rfl, rfl⟩) (show _ = Source.operand (.immediate v) from rfl)⟩
  | andZp nn => exact ⟨_, rfl, .logic _ _ (.inl ⟨rfl, rfl⟩) (show _ = Source.operand (.memory (.zeroPage nn)) from rfl)⟩
  | andZpX nn => exact ⟨_, rfl, .logic _ _ (.inl ⟨rfl, rfl⟩) (show _ = Source.operand (.memory (.zeroPageX nn)) from rfl)⟩
  | andAbs w => exact ⟨_, rfl, .logic _ _ (.inl ⟨rfl, rfl⟩) (show _ = Source.operand (.memory (.absolute w)) from rfl)⟩
  | andAbsX w => exact ⟨_, rfl, .logic _ _ (.inl ⟨rfl, rfl⟩) (show _ = Source.operand (.memory (.absoluteX w)) from rfl)⟩
  | andAbsY w => exact ⟨_, rfl, .logic _ _ (.inl ⟨rfl, rfl⟩) (show _ = Source.operand (.memory (.absoluteY w)) from rfl)⟩
  | andIndX nn => exact ⟨_, rfl, .logic _ _ (.inl ⟨rfl, rfl⟩) (show _ = Source.operand (.memory (.indirectX nn)) from rfl)⟩
  | andIndY nn => exact ⟨_, rfl, .logic _ _ (.inl ⟨rfl, rfl⟩) (show _ = Source.operand (.memory (.indirectY nn)) from rfl)⟩
  | oraImm v => exact ⟨_, rfl, .logic _ _ (.inr (.inl ⟨rfl, rfl⟩)) (show _ = Source.operand (.immediate v) from rfl)⟩
  | oraZp nn => exact ⟨_, rfl, .logic _ _ (.inr (.inl ⟨rfl, rfl⟩)) (show _ = Source.operand (.memory (.zeroPage nn)) from rfl)⟩
  | oraZpX nn => exact ⟨_, rfl, .logic _ _ (.inr (.inl ⟨rfl, rfl⟩)) (show _ = Source.operand (.memory (.zeroPageX nn)) from rfl)⟩
  | oraAbs w => exact ⟨_, rfl, .logic _ _ (.inr (.inl ⟨rfl, rfl⟩)) (show _ = Source.operand (.memory (.absolute w)) from rfl)⟩
  | oraAbsX w => exact ⟨_, rfl, .logic _ _ (.inr (.inl ⟨rfl, rfl⟩)) (show _ = Source.operand (.memory (.absoluteX w)) from rfl)⟩
  | oraAbsY w => exact ⟨_, rfl, .logic _ _ (.inr (.inl ⟨rfl, rfl⟩)) (show _ = Source.operand (.memory (.absoluteY w)) from rfl)⟩
  | oraIndX nn => exact ⟨_, rfl, .logic _ _ (.inr (.inl ⟨rfl, rfl⟩)) (show _ = Source.operand (.memory (.indirectX nn)) from rfl)⟩
  | oraIndY nn => exact ⟨_, rfl, .logic _ _ (.inr (.inl ⟨rfl, rfl⟩)) (show _ = Source.operand (.memory (.indirectY nn)) from rfl)⟩
  | eorImm v => exact ⟨_, rfl, .logic _ _ (.inr (.inr ⟨rfl, rfl⟩)) (show _ = Source.operand (.immediate v) from rfl)⟩
  | eorZp nn => exact ⟨_, rfl, .logic _ _ (.inr (.inr ⟨rfl, rfl⟩)) (show _ = Source.operand (.memory (.zeroPage nn)) from rfl)⟩
  | eorZpX nn => exact ⟨_, rfl, .logic _ _ (.inr (.inr ⟨rfl, rfl⟩)) (show _ = Source.operand (.memory (.zeroPageX nn)) from rfl)⟩
  | eorAbs w => exact ⟨_, rfl, .logic _ _ (.inr (.inr ⟨rfl, rfl⟩)) (show _ = Source.operand (.memory (.absolute w)) from rfl)⟩
  | eorAbsX w => exact ⟨_, rfl, .logic _ _ (.inr (.inr ⟨rfl, rfl⟩)) (show _ = Source.operand (.memory (.absoluteX w)) from rfl)⟩
  | eorAbsY w => exact ⟨_, rfl, .logic _ _ (.inr (.inr ⟨rfl, rfl⟩)) (show _ = Source.operand (.memory (.absoluteY w)) from rfl)⟩
  | eorIndX nn => exact ⟨_, rfl, .logic _ _ (.inr (.inr ⟨rfl, rfl⟩)) (show _ = Source.operand (.memory (.indirectX nn)) from rfl)⟩
  | eorIndY nn => exact ⟨_, rfl, .logic _ _ (.inr (.inr ⟨rfl, rfl⟩)) (show _ = Source.operand (.memory (.indirectY nn)) from rfl)⟩
  | bitZp nn => exact ⟨_, rfl, .bit _ rfl rfl⟩
  | bitAbs w => exact ⟨_, rfl, .bit _ rfl rfl⟩
  | bcc t => exact ⟨_, rfl, .branch _ _ (.inl ⟨rfl, rfl⟩) rfl⟩
  | bcs t => exact ⟨_, rfl, .branch _ _ (.inr (.inl ⟨rfl, rfl⟩)) rfl⟩
  | beq t => exact ⟨_, rfl, .branch _ _ (.inr (.inr (.inl ⟨rfl, rfl⟩))) rfl⟩
  | bmi t => exact ⟨_, rfl, .branch _ _ (.inr (.inr (.inr (.inl ⟨rfl, rfl⟩)))) rfl⟩
  | bne t => exact ⟨_, rfl, .branch _ _ (.inr (.inr (.inr (.inr (.inl ⟨rfl, rfl⟩))))) rfl⟩
  | bpl t => exact ⟨_, rfl, .branch _ _ (.inr (.inr (.inr (.inr (.inr (.inl ⟨rfl, rfl⟩)))))) rfl⟩
  | bvc t => exact ⟨_, rfl, .branch _ _ (.inr (.inr (.inr (.inr (.inr (.inr (.inl ⟨rfl, rfl⟩))))))) rfl⟩
  | bvs t => exact ⟨_, rfl, .branch _ _ (.inr (.inr (.inr (.inr (.inr (.inr (.inr ⟨rfl, rfl⟩))))))) rfl⟩
  | jmpAbs w => exact ⟨_, rfl, .jump _ rfl rfl⟩
  | jmpInd w => exact ⟨_, rfl, .jumpThrough _ rfl rfl⟩
  | jsrAbs w => exact ⟨_, rfl, .call _ rfl rfl⟩
  | rts => exact ⟨_, rfl, .rts rfl rfl⟩
  | brk => exact ⟨_, rfl, .brk rfl rfl⟩
  | rti => exact ⟨_, rfl, .rti rfl rfl⟩
  | pha => exact ⟨_, rfl, .push _ (.inl ⟨rfl, rfl⟩) rfl⟩
  | php => exact ⟨_, rfl, .push _ (.inr ⟨rfl, rfl⟩) rfl⟩
  | pla => exact ⟨_, rfl, .pla rfl rfl⟩
  | plp => exact ⟨_, rfl, .plp rfl rfl⟩
  | tsx =>
    exact ⟨{ s.opcodeFetched with x := s.sp, p := s.p.setZN s.sp }, rfl, one (i := .tsx) rfl ▸ .tsx rfl rfl⟩
  | txs =>
    exact ⟨{ s.opcodeFetched with sp := s.x }, rfl, one (i := .txs) rfl ▸ .txs rfl rfl⟩
  | clc =>
    exact ⟨{ s.opcodeFetched with p := { s.p with c := false } }, rfl, one (i := .clc) rfl ▸ .flag _ (.inl ⟨rfl, rfl⟩) rfl⟩
  | sec =>
    exact ⟨{ s.opcodeFetched with p := { s.p with c := true } }, rfl, one (i := .sec) rfl ▸ .flag _ (.inr (.inl ⟨rfl, rfl⟩)) rfl⟩
  | cli =>
    exact ⟨{ s.opcodeFetched with p := { s.p with i := false } }, rfl, one (i := .cli) rfl ▸ .flag _ (.inr (.inr (.inl ⟨rfl, rfl⟩))) rfl⟩
  | sei =>
    exact ⟨{ s.opcodeFetched with p := { s.p with i := true } }, rfl, one (i := .sei) rfl ▸ .flag _ (.inr (.inr (.inr (.inl ⟨rfl, rfl⟩)))) rfl⟩
  | cld =>
    exact ⟨{ s.opcodeFetched with p := { s.p with d := false } }, rfl, one (i := .cld) rfl ▸ .flag _ (.inr (.inr (.inr (.inr (.inl ⟨rfl, rfl⟩))))) rfl⟩
  | sed =>
    exact ⟨{ s.opcodeFetched with p := { s.p with d := true } }, rfl, one (i := .sed) rfl ▸ .flag _ (.inr (.inr (.inr (.inr (.inr (.inl ⟨rfl, rfl⟩)))))) rfl⟩
  | clv =>
    exact ⟨{ s.opcodeFetched with p := { s.p with v := false } }, rfl, one (i := .clv) rfl ▸ .flag _ (.inr (.inr (.inr (.inr (.inr (.inr ⟨rfl, rfl⟩)))))) rfl⟩
  | nop =>
    exact ⟨s.opcodeFetched, rfl, one (i := .nop) rfl ▸ .nop rfl rfl⟩

/-- Whatever an instruction does, it keeps the parameters and the canonical form of the storage, and it appends to the
trace the notifications of accesses that begin with the opcode fetch. -/
theorem ExecForm.keeps {i : Instr} {s t : State} (h : ExecForm i s t) :
    t.params = s.params ∧ (s.mem.wf = true → t.mem.wf = true) ∧ ∃ accs, t.trace = s.observed (.onRead s.pc :: accs) := by
  have past : ∀ l, ∃ accs, s.observed (s.fetchReads i.size ++ l) = s.observed (.onRead s.pc :: accs) := by
    intro l
    have : i.size = i.operand.width + 1 := Nat.add_comm _ _
    rw [this, State.fetchReads_succ]
    exact ⟨_, rfl⟩
  have W : s.mem.wf = true → ∀ (a : Word) v, (s.mem.write a.toNat v).wf = true := fun h a v => Memory.wf_write h a.isLt
  cases h
  case arithmetic change src hm h =>
    cases hd : s.p.d with
    | true => rw [addWithCarry_decimal _ _ _ hd]; exact ⟨rfl, id, [], rfl⟩
    | false => rw [addWithCarry_eq h _ _ hd]; exact ⟨rfl, id, past _⟩
  case jumpThrough w hm hi =>
    subst hi
    by_cases hw : lo w = 0xFF#8
    · rw [jumpThrough_wrap _ hw s]; exact ⟨rfl, id, _, congrArg s.observed (State.fetchReads_succ s 2)⟩
    · rw [jumpThrough_eq (i := .jmpInd w) rfl _ hw];  exact ⟨rfl, id, past _⟩
  case lda src hm h => rw [loadA_eq h]; exact ⟨rfl, id, past _⟩
  case ldx src hm h => rw [loadX_eq h]; exact ⟨rfl, id, past _⟩
  case ldy src hm h => rw [loadY_eq h]; exact ⟨rfl, id, past _⟩
  case store v m hm h => rw [storeByte_eq h]; exact ⟨rfl, fun h => W h _ _, past _⟩
  case compare v m hm h => rw [compareWith_eq h]; exact ⟨rfl, id, past _⟩
  case incDec v m hm h => rw [modifyByte_eq h]; exact ⟨rfl, fun h => W h _ _, past _⟩
  case shift f t hm h =>
    cases t with
    | accumulator => rw [shiftTarget_accumulator h]; exact ⟨rfl, id, past _⟩
    | memory m => rw [shiftTarget_memory h]; exact ⟨rfl, fun h => W h _ _, past _⟩
  case logic f src hm h => rw [combineA_eq h]; exact ⟨rfl, id, past _⟩
  case bit m hm h => rw [testBits_eq h]; exact ⟨rfl, id, past _⟩
  case branch c t hm h => rw [branchIf_eq h]; split <;> exact ⟨rfl, id, past _⟩
  case jump w hm h => rw [jumpTo_eq (i := .jmpAbs w) rfl]; subst h; exact ⟨rfl, id, past _⟩
  case call w hm h => rw [callTo_eq (i := .jsrAbs w) rfl]; subst h; refine ⟨rfl, fun h => ?_, past _⟩; dsimp only; exact State.wf_push16 h _
  case rts h hi => rw [returnFromCall_eq (i := .rts) rfl]; subst hi; exact ⟨rfl, id, past _⟩
  case brk h hi => rw [trapEntry_eq (i := .brk) rfl]; subst hi; refine ⟨rfl, fun h => ?_, past _⟩; dsimp only; exact State.wf_push16 (State.wf_push h s.p.pack) _
  case rti h hi => rw [trapReturn_eq (i := .rti) rfl]; subst hi; exact ⟨rfl, id, past _⟩
  case push v hm h => rw [State.opcodeFetched_push h]; exact ⟨rfl, fun h => W h _ _, past _⟩
  case pla v hm => subst hm; rw [State.opcodeFetched_pull (i := .pla) rfl s]; refine ⟨rfl, id, past _⟩
  case plp v hm => subst hm; rw [State.opcodeFetched_pull (i := .plp) rfl]; exact ⟨rfl, id, past _⟩
  all_goals exact ⟨rfl, id, past _⟩

/-- From a Running engine an instruction completes, but for the JMP page wrap and for decimal arithmetic, which raise
UnsupportedFeature. -/
theorem ExecForm.run_cases {i : Instr} {s t : State} (h : ExecForm i s t) (hr : s.run = .running) :
    t.run = .running ∨ (∃ w, i = .jmpInd w ∧ lo w = 0xFF#8 ∧ t = { s with
        run := .faulted .unsupportedFeature s.pc 0x6C#8, trace := s.observed (s.fetchReads 3) }) ∨
     ((i.mnemonic = .adc ∨ i.mnemonic = .sbc) ∧ s.p.d = true ∧ t =  { s with
        run := .faulted .unsupportedFeature s.pc i.opcode, trace := s.observed (s.fetchReads 1) }) := by
  cases h
  case arithmetic change src hm h =>
    cases hd : s.p.d with
    | true =>
      refine .inr (.inr ⟨?_, rfl, ?_⟩)
      · rcases hm with hm | hm
        · exact .inl hm.1
        · exact .inr hm.1
      · rw [addWithCarry_decimal _ _ _ hd, State.fetchReads_one]
    | false => rw [addWithCarry_eq h _ _ hd]; exact .inl hr
  case jumpThrough w hm hi =>
    subst hi
    by_cases hw : lo w = 0xFF#8
    · exact .inr (.inl ⟨w, rfl, hw, jumpThrough_wrap _ hw s⟩)
    · rw [jumpThrough_eq (i := .jmpInd w) rfl _ hw]; exact .inl hr
  case lda src hm h => rw [loadA_eq h]; exact .inl hr
  case ldx src hm h => rw [loadX_eq h]; exact .inl hr
  case ldy src hm h => rw [loadY_eq h]; exact .inl hr
  case store v m hm h => rw [storeByte_eq h]; exact .inl hr
  case compare v m hm h => rw [compareWith_eq h]; exact .inl hr
  case incDec v m hm h => rw [modifyByte_eq h]; exact .inl hr
  case shift f t hm h =>
    cases t with
    | accumulator => rw [shiftTarget_accumulator h]; exact .inl hr
    | memory m => rw [shiftTarget_memory h]; exact .inl hr
  case logic f src hm h => rw [combineA_eq h]; exact .inl hr
  case bit m hm h => rw [testBits_eq h]; exact .inl hr
  case branch c t hm h => rw [branchIf_eq h]; split <;> exact .inl hr
  case jump w hm h => rw [jumpTo_eq (i := .jmpAbs w) rfl]; exact .inl hr
  case call w hm h => rw [callTo_eq (i := .jsrAbs w) rfl]; exact .inl hr
  case rts h _ => rw [returnFromCall_eq (i := .rts) rfl]; exact .inl hr
  case brk h _ => rw [trapEntry_eq (i := .brk) rfl]; exact .inl hr
  case rti h _ => rw [trapReturn_eq (i := .rti) rfl]; exact .inl hr
  case push v hm h => rw [State.opcodeFetched_push h]; exact .inl hr
  case pla v hm => exact .inl hr
  case plp v hm => exact .inl hr
  all_goals exact .inl hr

end Sys2Proof.Machine
end

