-- ==== Sys2Proof/Laws/PerInstr.lean ====
section
/-! SUPPORT. Statements about every instruction as syntax, one lemma per constructor. -/

namespace Sys2Proof.Laws

/-- Width agreement (R114): the encoding is as long as the instruction's size, which is 1 to 3 bytes (R80). -/
def WidthAgreement.Statement (i : Instr) : Prop := (encode i).length = i.size ∧ 1 ≤ i.size ∧ i.size ≤ 3

theorem WidthAgreement.ldaImm (v : Byte) : WidthAgreement.Statement (.ldaImm v) := ⟨rfl, Nat.le_of_ble_eq_true rfl, Nat.le_of_ble_eq_true rfl⟩
theorem WidthAgreement.ldaZp (nn : Byte) : WidthAgreement.Statement (.ldaZp nn) := ⟨rfl, Nat.le_of_ble_eq_true rfl, Nat.le_of_ble_eq_true rfl⟩
theorem WidthAgreement.ldaZpX (nn : Byte) : WidthAgreement.Statement (.ldaZpX nn) := ⟨rfl, Nat.le_of_ble_eq_true rfl, Nat.le_of_ble_eq_true rfl⟩
theorem WidthAgreement.ldaAbs (w : Word) : WidthAgreement.Statement (.ldaAbs w) := ⟨rfl, Nat.le_of_ble_eq_true rfl, Nat.le_of_ble_eq_true rfl⟩
theorem WidthAgreement.ldaAbsX (w : Word) : WidthAgreement.Statement (.ldaAbsX w) := ⟨rfl, Nat.le_of_ble_eq_true rfl, Nat.le_of_ble_eq_true rfl⟩
theorem WidthAgreement.ldaAbsY (w : Word) : WidthAgreement.Statement (.ldaAbsY w) := ⟨rfl, Nat.le_of_ble_eq_true rfl, Nat.le_of_ble_eq_true rfl⟩
theorem WidthAgreement.ldaIndX (nn : Byte) : WidthAgreement.Statement (.ldaIndX nn) := ⟨rfl, Nat.le_of_ble_eq_true rfl, Nat.le_of_ble_eq_true rfl⟩
theorem WidthAgreement.ldaIndY (nn : Byte) : WidthAgreement.Statement (.ldaIndY nn) := ⟨rfl, Nat.le_of_ble_eq_true rfl, Nat.le_of_ble_eq_true rfl⟩
theorem WidthAgreement.ldxImm (v : Byte) : WidthAgreement.Statement (.ldxImm v) := ⟨rfl, Nat.le_of_ble_eq_true rfl, Nat.le_of_ble_eq_true rfl⟩
theorem WidthAgreement.ldxZp (nn : Byte) : WidthAgreement.Statement (.ldxZp nn) := ⟨rfl, Nat.le_of_ble_eq_true rfl, Nat.le_of_ble_eq_true rfl⟩
theorem WidthAgreement.ldxZpY (nn : Byte) : WidthAgreement.Statement (.ldxZpY nn) := ⟨rfl, Nat.le_of_ble_eq_true rfl, Nat.le_of_ble_eq_true rfl⟩
theorem WidthAgreement.ldxAbs (w : Word) : WidthAgreement.Statement (.ldxAbs w) := ⟨rfl, Nat.le_of_ble_eq_true rfl, Nat.le_of_ble_eq_true rfl⟩
theorem WidthAgreement.ldxAbsY (w : Word) : WidthAgreement.Statement (.ldxAbsY w) := ⟨rfl, Nat.le_of_ble_eq_true rfl, Nat.le_of_ble_eq_true rfl⟩
theorem WidthAgreement.ldyImm (v : Byte) : WidthAgreement.Statement (.ldyImm v) := ⟨rfl, Nat.le_of_ble_eq_true rfl, Nat.le_of_ble_eq_true rfl⟩
theorem WidthAgreement.ldyZp (nn : Byte) : WidthAgreement.Statement (.ldyZp nn) := ⟨rfl, Nat.le_of_ble_eq_true rfl, Nat.le_of_ble_eq_true rfl⟩
theorem WidthAgreement.ldyZpX (nn : Byte) : WidthAgreement.Statement (.ldyZpX nn) := ⟨rfl, Nat.le_of_ble_eq_true rfl, Nat.le_of_ble_eq_true rfl⟩
theorem WidthAgreement.ldyAbs (w : Word) : WidthAgreement.Statement (.ldyAbs w) := ⟨rfl, Nat.le_of_ble_eq_true rfl, Nat.le_of_ble_eq_true rfl⟩
theorem WidthAgreement.ldyAbsX (w : Word) : WidthAgreement.Statement (.ldyAbsX w) := ⟨rfl, Nat.le_of_ble_eq_true rfl, Nat.le_of_ble_eq_true rfl⟩
theorem WidthAgreement.staZp (nn : Byte) : WidthAgreement.Statement (.staZp nn) := ⟨rfl, Nat.le_of_ble_eq_true rfl, Nat.le_of_ble_eq_true rfl⟩
theorem WidthAgreement.staZpX (nn : Byte) : WidthAgreement.Statement (.staZpX nn) := ⟨rfl, Nat.le_of_ble_eq_true rfl, Nat.le_of_ble_eq_true rfl⟩
theorem WidthAgreement.staAbs (w : Word) : WidthAgreement.Statement (.staAbs w) := ⟨rfl, Nat.le_of_ble_eq_true rfl, Nat.le_of_ble_eq_true rfl⟩
theorem WidthAgreement.staAbsX (w : Word) : WidthAgreement.Statement (.staAbsX w) := ⟨rfl, Nat.le_of_ble_eq_true rfl, Nat.le_of_ble_eq_true rfl⟩
theorem WidthAgreement.staAbsY (w : Word) : WidthAgreement.Statement (.staAbsY w) := ⟨rfl, Nat.le_of_ble_eq_true rfl, Nat.le_of_ble_eq_true rfl⟩
theorem WidthAgreement.staIndX (nn : Byte) : WidthAgreement.Statement (.staIndX nn) := ⟨rfl, Nat.le_of_ble_eq_true rfl, Nat.le_of_ble_eq_true rfl⟩
theorem WidthAgreement.staIndY (nn : Byte) : WidthAgreement.Statement (.staIndY nn) := ⟨rfl, Nat.le_of_ble_eq_true rfl, Nat.le_of_ble_eq_true rfl⟩
theorem WidthAgreement.stxZp (nn : Byte) : WidthAgreement.Statement (.stxZp nn) := ⟨rfl, Nat.le_of_ble_eq_true rfl, Nat.le_of_ble_eq_true rfl⟩
theorem WidthAgreement.stxZpY (nn : Byte) : WidthAgreement.Statement (.stxZpY nn) := ⟨rfl, Nat.le_of_ble_eq_true rfl, Nat.le_of_ble_eq_true rfl⟩
theorem WidthAgreement.stxAbs (w : Word) : WidthAgreement.Statement (.stxAbs w) := ⟨rfl, Nat.le_of_ble_eq_true rfl, Nat.le_of_ble_eq_true rfl⟩
theorem WidthAgreement.styZp (nn : Byte) : WidthAgreement.Statement (.styZp nn) := ⟨rfl, Nat.le_of_ble_eq_true rfl, Nat.le_of_ble_eq_true rfl⟩
theorem WidthAgreement.styZpX (nn : Byte) : WidthAgreement.Statement (.styZpX nn) := ⟨rfl, Nat.le_of_ble_eq_true rfl, Nat.le_of_ble_eq_true rfl⟩
theorem WidthAgreement.styAbs (w : Word) : WidthAgreement.Statement (.styAbs w) := ⟨rfl, Nat.le_of_ble_eq_true rfl, Nat.le_of_ble_eq_true rfl⟩
theorem WidthAgreement.tax : WidthAgreement.Statement .tax := ⟨rfl, Nat.le_of_ble_eq_true rfl, Nat.le_of_ble_eq_true rfl⟩
theorem WidthAgreement.tay : WidthAgreement.Statement .tay := ⟨rfl, Nat.le_of_ble_eq_true rfl, Nat.le_of_ble_eq_true rfl⟩
theorem WidthAgreement.txa : WidthAgreement.Statement .txa := ⟨rfl, Nat.le_of_ble_eq_true rfl, Nat.le_of_ble_eq_true rfl⟩
theorem WidthAgreement.tya : WidthAgreement.Statement .tya := ⟨rfl, Nat.le_of_ble_eq_true rfl, Nat.le_of_ble_eq_true rfl⟩
theorem WidthAgreement.adcImm (v : Byte) : WidthAgreement.Statement (.adcImm v) := ⟨rfl, Nat.le_of_ble_eq_true rfl, Nat.le_of_ble_eq_true rfl⟩
theorem WidthAgreement.adcZp (nn : Byte) : WidthAgreement.Statement (.adcZp nn) := ⟨rfl, Nat.le_of_ble_eq_true rfl, Nat.le_of_ble_eq_true rfl⟩
theorem WidthAgreement.adcZpX (nn : Byte) : WidthAgreement.Statement (.adcZpX nn) := ⟨rfl, Nat.le_of_ble_eq_true rfl, Nat.le_of_ble_eq_true rfl⟩
theorem WidthAgreement.adcAbs (w : Word) : WidthAgreement.Statement (.adcAbs w) := ⟨rfl, Nat.le_of_ble_eq_true rfl, Nat.le_of_ble_eq_true rfl⟩
theorem WidthAgreement.adcAbsX (w : Word) : WidthAgreement.Statement (.adcAbsX w) := ⟨rfl, Nat.le_of_ble_eq_true rfl, Nat.le_of_ble_eq_true rfl⟩
theorem WidthAgreement.adcAbsY (w : Word) : WidthAgreement.Statement (.adcAbsY w) := ⟨rfl, Nat.le_of_ble_eq_true rfl, Nat.le_of_ble_eq_true rfl⟩
theorem WidthAgreement.adcIndX (nn : Byte) : WidthAgreement.Statement (.adcIndX nn) := ⟨rfl, Nat.le_of_ble_eq_true rfl, Nat.le_of_ble_eq_true rfl⟩
theorem WidthAgreement.adcIndY (nn : Byte) : WidthAgreement.Statement (.adcIndY nn) := ⟨rfl, Nat.le_of_ble_eq_true rfl, Nat.le_of_ble_eq_true rfl⟩
theorem WidthAgreement.sbcImm (v : Byte) : WidthAgreement.Statement (.sbcImm v) := ⟨rfl, Nat.le_of_ble_eq_true rfl, Nat.le_of_ble_eq_true rfl⟩
theorem WidthAgreement.sbcZp (nn : Byte) : WidthAgreement.Statement (.sbcZp nn) := ⟨rfl, Nat.le_of_ble_eq_true rfl, Nat.le_of_ble_eq_true rfl⟩
theorem WidthAgreement.sbcZpX (nn : Byte) : WidthAgreement.Statement (.sbcZpX nn) := ⟨rfl, Nat.le_of_ble_eq_true rfl, Nat.le_of_ble_eq_true rfl⟩
theorem WidthAgreement.sbcAbs (w : Word) : WidthAgreement.Statement (.sbcAbs w) := ⟨rfl, Nat.le_of_ble_eq_true rfl, Nat.le_of_ble_eq_true rfl⟩
theorem WidthAgreement.sbcAbsX (w : Word) : WidthAgreement.Statement (.sbcAbsX w) := ⟨rfl, Nat.le_of_ble_eq_true rfl, Nat.le_of_ble_eq_true rfl⟩
theorem WidthAgreement.sbcAbsY (w : Word) : WidthAgreement.Statement (.sbcAbsY w) := ⟨rfl, Nat.le_of_ble_eq_true rfl, Nat.le_of_ble_eq_true rfl⟩
theorem WidthAgreement.sbcIndX (nn : Byte) : WidthAgreement.Statement (.sbcIndX nn) := ⟨rfl, Nat.le_of_ble_eq_true rfl, Nat.le_of_ble_eq_true rfl⟩
theorem WidthAgreement.sbcIndY (nn : Byte) : WidthAgreement.Statement (.sbcIndY nn) := ⟨rfl, Nat.le_of_ble_eq_true rfl, Nat.le_of_ble_eq_true rfl⟩
theorem WidthAgreement.cmpImm (v : Byte) : WidthAgreement.Statement (.cmpImm v) := ⟨rfl, Nat.le_of_ble_eq_true rfl, Nat.le_of_ble_eq_true rfl⟩
theorem WidthAgreement.cmpZp (nn : Byte) : WidthAgreement.Statement (.cmpZp nn) := ⟨rfl, Nat.le_of_ble_eq_true rfl, Nat.le_of_ble_eq_true rfl⟩
theorem WidthAgreement.cmpZpX (nn : Byte) : WidthAgreement.Statement (.cmpZpX nn) := ⟨rfl, Nat.le_of_ble_eq_true rfl, Nat.le_of_ble_eq_true rfl⟩
theorem WidthAgreement.cmpAbs (w : Word) : WidthAgreement.Statement (.cmpAbs w) := ⟨rfl, Nat.le_of_ble_eq_true rfl, Nat.le_of_ble_eq_true rfl⟩
theorem WidthAgreement.cmpAbsX (w : Word) : WidthAgreement.Statement (.cmpAbsX w) := ⟨rfl, Nat.le_of_ble_eq_true rfl, Nat.le_of_ble_eq_true rfl⟩
theorem WidthAgreement.cmpAbsY (w : Word) : WidthAgreement.Statement (.cmpAbsY w) := ⟨rfl, Nat.le_of_ble_eq_true rfl, Nat.le_of_ble_eq_true rfl⟩
theorem WidthAgreement.cmpIndX (nn : Byte) : WidthAgreement.Statement (.cmpIndX nn) := ⟨rfl, Nat.le_of_ble_eq_true rfl, Nat.le_of_ble_eq_true rfl⟩
theorem WidthAgreement.cmpIndY (nn : Byte) : WidthAgreement.Statement (.cmpIndY nn) := ⟨rfl, Nat.le_of_ble_eq_true rfl, Nat.le_of_ble_eq_true rfl⟩
theorem WidthAgreement.cpxImm (v : Byte) : WidthAgreement.Statement (.cpxImm v) := ⟨rfl, Nat.le_of_ble_eq_true rfl, Nat.le_of_ble_eq_true rfl⟩
theorem WidthAgreement.cpxZp (nn : Byte) : WidthAgreement.Statement (.cpxZp nn) := ⟨rfl, Nat.le_of_ble_eq_true rfl, Nat.le_of_ble_eq_true rfl⟩
theorem WidthAgreement.cpxAbs (w : Word) : WidthAgreement.Statement (.cpxAbs w) := ⟨rfl, Nat.le_of_ble_eq_true rfl, Nat.le_of_ble_eq_true rfl⟩
theorem WidthAgreement.cpyImm (v : Byte) : WidthAgreement.Statement (.cpyImm v) := ⟨rfl, Nat.le_of_ble_eq_true rfl, Nat.le_of_ble_eq_true rfl⟩
theorem WidthAgreement.cpyZp (nn : Byte) : WidthAgreement.Statement (.cpyZp nn) := ⟨rfl, Nat.le_of_ble_eq_true rfl, Nat.le_of_ble_eq_true rfl⟩
theorem WidthAgreement.cpyAbs (w : Word) : WidthAgreement.Statement (.cpyAbs w) := ⟨rfl, Nat.le_of_ble_eq_true rfl, Nat.le_of_ble_eq_true rfl⟩
theorem WidthAgreement.incZp (nn : Byte) : WidthAgreement.Statement (.incZp nn) := ⟨rfl, Nat.le_of_ble_eq_true rfl, Nat.le_of_ble_eq_true rfl⟩
theorem WidthAgreement.incZpX (nn : Byte) : WidthAgreement.Statement (.incZpX nn) := ⟨rfl, Nat.le_of_ble_eq_true rfl, Nat.le_of_ble_eq_true rfl⟩
theorem WidthAgreement.incAbs (w : Word) : WidthAgreement.Statement (.incAbs w) := ⟨rfl, Nat.le_of_ble_eq_true rfl, Nat.le_of_ble_eq_true rfl⟩
theorem WidthAgreement.incAbsX (w : Word) : WidthAgreement.Statement (.incAbsX w) := ⟨rfl, Nat.le_of_ble_eq_true rfl, Nat.le_of_ble_eq_true rfl⟩
theorem WidthAgreement.decZp (nn : Byte) : WidthAgreement.Statement (.decZp nn) := ⟨rfl, Nat.le_of_ble_eq_true rfl, Nat.le_of_ble_eq_true rfl⟩
theorem WidthAgreement.decZpX (nn : Byte) : WidthAgreement.Statement (.decZpX nn) := ⟨rfl, Nat.le_of_ble_eq_true rfl, Nat.le_of_ble_eq_true rfl⟩
theorem WidthAgreement.decAbs (w : Word) : WidthAgreement.Statement (.decAbs w) := ⟨rfl, Nat.le_of_ble_eq_true rfl, Nat.le_of_ble_eq_true rfl⟩
theorem WidthAgreement.decAbsX (w : Word) : WidthAgreement.Statement (.decAbsX w) := ⟨rfl, Nat.le_of_ble_eq_true rfl, Nat.le_of_ble_eq_true rfl⟩
theorem WidthAgreement.inx : WidthAgreement.Statement .inx := ⟨rfl, Nat.le_of_ble_eq_true rfl, Nat.le_of_ble_eq_true rfl⟩
theorem WidthAgreement.iny : WidthAgreement.Statement .iny := ⟨rfl, Nat.le_of_ble_eq_true rfl, Nat.le_of_ble_eq_true rfl⟩
theorem WidthAgreement.dex : WidthAgreement.Statement .dex := ⟨rfl, Nat.le_of_ble_eq_true rfl, Nat.le_of_ble_eq_true rfl⟩
theorem WidthAgreement.dey : WidthAgreement.Statement .dey := ⟨rfl, Nat.le_of_ble_eq_true rfl, Nat.le_of_ble_eq_true rfl⟩
theorem WidthAgreement.aslAcc : WidthAgreement.Statement .aslAcc := ⟨rfl, Nat.le_of_ble_eq_true rfl, Nat.le_of_ble_eq_true rfl⟩
theorem WidthAgreement.aslZp (nn : Byte) : WidthAgreement.Statement (.aslZp nn) := ⟨rfl, Nat.le_of_ble_eq_true rfl, Nat.le_of_ble_eq_true rfl⟩
theorem WidthAgreement.aslZpX (nn : Byte) : WidthAgreement.Statement (.aslZpX nn) := ⟨rfl, Nat.le_of_ble_eq_true rfl, Nat.le_of_ble_eq_true rfl⟩
theorem WidthAgreement.aslAbs (w : Word) : WidthAgreement.Statement (.aslAbs w) := ⟨rfl, Nat.le_of_ble_eq_true rfl, Nat.le_of_ble_eq_true rfl⟩
theorem WidthAgreement.aslAbsX (w : Word) : WidthAgreement.Statement (.aslAbsX w) := ⟨rfl, Nat.le_of_ble_eq_true rfl, Nat.le_of_ble_eq_true rfl⟩
theorem WidthAgreement.lsrAcc : WidthAgreement.Statement .lsrAcc := ⟨rfl, Nat.le_of_ble_eq_true rfl, Nat.le_of_ble_eq_true rfl⟩
theorem WidthAgreement.lsrZp (nn : Byte) : WidthAgreement.Statement (.lsrZp nn) := ⟨rfl, Nat.le_of_ble_eq_true rfl, Nat.le_of_ble_eq_true rfl⟩
theorem WidthAgreement.lsrZpX (nn : Byte) : WidthAgreement.Statement (.lsrZpX nn) := ⟨rfl, Nat.le_of_ble_eq_true rfl, Nat.le_of_ble_eq_true rfl⟩
theorem WidthAgreement.lsrAbs (w : Word) : WidthAgreement.Statement (.lsrAbs w) := ⟨rfl, Nat.le_of_ble_eq_true rfl, Nat.le_of_ble_eq_true rfl⟩
theorem WidthAgreement.lsrAbsX (w : Word) : WidthAgreement.Statement (.lsrAbsX w) := ⟨rfl, Nat.le_of_ble_eq_true rfl, Nat.le_of_ble_eq_true rfl⟩
theorem WidthAgreement.rolAcc : WidthAgreement.Statement .rolAcc := ⟨rfl, Nat.le_of_ble_eq_true rfl, Nat.le_of_ble_eq_true rfl⟩
theorem WidthAgreement.rolZp (nn : Byte) : WidthAgreement.Statement (.rolZp nn) := ⟨rfl, Nat.le_of_ble_eq_true rfl, Nat.le_of_ble_eq_true rfl⟩
theorem WidthAgreement.rolZpX (nn : Byte) : WidthAgreement.Statement (.rolZpX nn) := ⟨rfl, Nat.le_of_ble_eq_true rfl, Nat.le_of_ble_eq_true rfl⟩
theorem WidthAgreement.rolAbs (w : Word) : WidthAgreement.Statement (.rolAbs w) := ⟨rfl, Nat.le_of_ble_eq_true rfl, Nat.le_of_ble_eq_true rfl⟩
theorem WidthAgreement.rolAbsX (w : Word) : WidthAgreement.Statement (.rolAbsX w) := ⟨rfl, Nat.le_of_ble_eq_true rfl, Nat.le_of_ble_eq_true rfl⟩
theorem WidthAgreement.rorAcc : WidthAgreement.Statement .rorAcc := ⟨rfl, Nat.le_of_ble_eq_true rfl, Nat.le_of_ble_eq_true rfl⟩
theorem WidthAgreement.rorZp (nn : Byte) : WidthAgreement.Statement (.rorZp nn) := ⟨rfl, Nat.le_of_ble_eq_true rfl, Nat.le_of_ble_eq_true rfl⟩
theorem WidthAgreement.rorZpX (nn : Byte) : WidthAgreement.Statement (.rorZpX nn) := ⟨rfl, Nat.le_of_ble_eq_true rfl, Nat.le_of_ble_eq_true rfl⟩
theorem WidthAgreement.rorAbs (w : Word) : WidthAgreement.Statement (.rorAbs w) := ⟨rfl, Nat.le_of_ble_eq_true rfl, Nat.le_of_ble_eq_true rfl⟩
theorem WidthAgreement.rorAbsX (w : Word) : WidthAgreement.Statement (.rorAbsX w) := ⟨rfl, Nat.le_of_ble_eq_true rfl, Nat.le_of_ble_eq_true rfl⟩
theorem WidthAgreement.andImm (v : Byte) : WidthAgreement.Statement (.andImm v) := ⟨rfl, Nat.le_of_ble_eq_true rfl, Nat.le_of_ble_eq_true rfl⟩
theorem WidthAgreement.andZp (nn : Byte) : WidthAgreement.Statement (.andZp nn) := ⟨rfl, Nat.le_of_ble_eq_true rfl, Nat.le_of_ble_eq_true rfl⟩
theorem WidthAgreement.andZpX (nn : Byte) : WidthAgreement.Statement (.andZpX nn) := ⟨rfl, Nat.le_of_ble_eq_true rfl, Nat.le_of_ble_eq_true rfl⟩
theorem WidthAgreement.andAbs (w : Word) : WidthAgreement.Statement (.andAbs w) := ⟨rfl, Nat.le_of_ble_eq_true rfl, Nat.le_of_ble_eq_true rfl⟩
theorem WidthAgreement.andAbsX (w : Word) : WidthAgreement.Statement (.andAbsX w) := ⟨rfl, Nat.le_of_ble_eq_true rfl, Nat.le_of_ble_eq_true rfl⟩
theorem WidthAgreement.andAbsY (w : Word) : WidthAgreement.Statement (.andAbsY w) := ⟨rfl, Nat.le_of_ble_eq_true rfl, Nat.le_of_ble_eq_true rfl⟩
theorem WidthAgreement.andIndX (nn : Byte) : WidthAgreement.Statement (.andIndX nn) := ⟨rfl, Nat.le_of_ble_eq_true rfl, Nat.le_of_ble_eq_true rfl⟩
theorem WidthAgreement.andIndY (nn : Byte) : WidthAgreement.Statement (.andIndY nn) := ⟨rfl, Nat.le_of_ble_eq_true rfl, Nat.le_of_ble_eq_true rfl⟩
theorem WidthAgreement.oraImm (v : Byte) : WidthAgreement.Statement (.oraImm v) := ⟨rfl, Nat.le_of_ble_eq_true rfl, Nat.le_of_ble_eq_true rfl⟩
theorem WidthAgreement.oraZp (nn : Byte) : WidthAgreement.Statement (.oraZp nn) := ⟨rfl, Nat.le_of_ble_eq_true rfl, Nat.le_of_ble_eq_true rfl⟩
theorem WidthAgreement.oraZpX (nn : Byte) : WidthAgreement.Statement (.oraZpX nn) := ⟨rfl, Nat.le_of_ble_eq_true rfl, Nat.le_of_ble_eq_true rfl⟩
theorem WidthAgreement.oraAbs (w : Word) : WidthAgreement.Statement (.oraAbs w) := ⟨rfl, Nat.le_of_ble_eq_true rfl, Nat.le_of_ble_eq_true rfl⟩
theorem WidthAgreement.oraAbsX (w : Word) : WidthAgreement.Statement (.oraAbsX w) := ⟨rfl, Nat.le_of_ble_eq_true rfl, Nat.le_of_ble_eq_true rfl⟩
theorem WidthAgreement.oraAbsY (w : Word) : WidthAgreement.Statement (.oraAbsY w) := ⟨rfl, Nat.le_of_ble_eq_true rfl, Nat.le_of_ble_eq_true rfl⟩
theorem WidthAgreement.oraIndX (nn : Byte) : WidthAgreement.Statement (.oraIndX nn) := ⟨rfl, Nat.le_of_ble_eq_true rfl, Nat.le_of_ble_eq_true rfl⟩
theorem WidthAgreement.oraIndY (nn : Byte) : WidthAgreement.Statement (.oraIndY nn) := ⟨rfl, Nat.le_of_ble_eq_true rfl, Nat.le_of_ble_eq_true rfl⟩
theorem WidthAgreement.eorImm (v : Byte) : WidthAgreement.Statement (.eorImm v) := ⟨rfl, Nat.le_of_ble_eq_true rfl, Nat.le_of_ble_eq_true rfl⟩
theorem WidthAgreement.eorZp (nn : Byte) : WidthAgreement.Statement (.eorZp nn) := ⟨rfl, Nat.le_of_ble_eq_true rfl, Nat.le_of_ble_eq_true rfl⟩
theorem WidthAgreement.eorZpX (nn : Byte) : WidthAgreement.Statement (.eorZpX nn) := ⟨rfl, Nat.le_of_ble_eq_true rfl, Nat.le_of_ble_eq_true rfl⟩
theorem WidthAgreement.eorAbs (w : Word) : WidthAgreement.Statement (.eorAbs w) := ⟨rfl, Nat.le_of_ble_eq_true rfl, Nat.le_of_ble_eq_true rfl⟩
theorem WidthAgreement.eorAbsX (w : Word) : WidthAgreement.Statement (.eorAbsX w) := ⟨rfl, Nat.le_of_ble_eq_true rfl, Nat.le_of_ble_eq_true rfl⟩
theorem WidthAgreement.eorAbsY (w : Word) : WidthAgreement.Statement (.eorAbsY w) := ⟨rfl, Nat.le_of_ble_eq_true rfl, Nat.le_of_ble_eq_true rfl⟩
theorem WidthAgreement.eorIndX (nn : Byte) : WidthAgreement.Statement (.eorIndX nn) := ⟨rfl, Nat.le_of_ble_eq_true rfl, Nat.le_of_ble_eq_true rfl⟩
theorem WidthAgreement.eorIndY (nn : Byte) : WidthAgreement.Statement (.eorIndY nn) := ⟨rfl, Nat.le_of_ble_eq_true rfl, Nat.le_of_ble_eq_true rfl⟩
theorem WidthAgreement.bitZp (nn : Byte) : WidthAgreement.Statement (.bitZp nn) := ⟨rfl, Nat.le_of_ble_eq_true rfl, Nat.le_of_ble_eq_true rfl⟩
theorem WidthAgreement.bitAbs (w : Word) : WidthAgreement.Statement (.bitAbs w) := ⟨rfl, Nat.le_of_ble_eq_true rfl, Nat.le_of_ble_eq_true rfl⟩
theorem WidthAgreement.bcc (t : BranchArg) : WidthAgreement.Statement (.bcc t) := by
  cases t <;> exact ⟨rfl, Nat.le_of_ble_eq_true rfl, Nat.le_of_ble_eq_true rfl⟩
theorem WidthAgreement.bcs (t : BranchArg) : WidthAgreement.Statement (.bcs t) := by
  cases t <;> exact ⟨rfl, Nat.le_of_ble_eq_true rfl, Nat.le_of_ble_eq_true rfl⟩
theorem WidthAgreement.beq (t : BranchArg) : WidthAgreement.Statement (.beq t) := by
  cases t <;> exact ⟨rfl, Nat.le_of_ble_eq_true rfl, Nat.le_of_ble_eq_true rfl⟩
theorem WidthAgreement.bmi (t : BranchArg) : WidthAgreement.Statement (.bmi t) := by
  cases t <;> exact ⟨rfl, Nat.le_of_ble_eq_true rfl, Nat.le_of_ble_eq_true rfl⟩
theorem WidthAgreement.bne (t : BranchArg) : WidthAgreement.Statement (.bne t) := by
  cases t <;> exact ⟨rfl, Nat.le_of_ble_eq_true rfl, Nat.le_of_ble_eq_true rfl⟩
theorem WidthAgreement.bpl (t : BranchArg) : WidthAgreement.Statement (.bpl t) := by
  cases t <;> exact ⟨rfl, Nat.le_of_ble_eq_true rfl, Nat.le_of_ble_eq_true rfl⟩
theorem WidthAgreement.bvc (t : BranchArg) : WidthAgreement.Statement (.bvc t) := by
  cases t <;> exact ⟨rfl, Nat.le_of_ble_eq_true rfl, Nat.le_of_ble_eq_true rfl⟩
theorem WidthAgreement.bvs (t : BranchArg) : WidthAgreement.Statement (.bvs t) := by
  cases t <;> exact ⟨rfl, Nat.le_of_ble_eq_true rfl, Nat.le_of_ble_eq_true rfl⟩
theorem WidthAgreement.jmpAbs (w : Word) : WidthAgreement.Statement (.jmpAbs w) := ⟨rfl, Nat.le_of_ble_eq_true rfl, Nat.le_of_ble_eq_true rfl⟩
theorem WidthAgreement.jmpInd (w : Word) : WidthAgreement.Statement (.jmpInd w) := ⟨rfl, Nat.le_of_ble_eq_true rfl, Nat.le_of_ble_eq_true rfl⟩
theorem WidthAgreement.jsrAbs (w : Word) : WidthAgreement.Statement (.jsrAbs w) := ⟨rfl, Nat.le_of_ble_eq_true rfl, Nat.le_of_ble_eq_true rfl⟩
theorem WidthAgreement.rts : WidthAgreement.Statement .rts := ⟨rfl, Nat.le_of_ble_eq_true rfl, Nat.le_of_ble_eq_true rfl⟩
theorem WidthAgreement.brk : WidthAgreement.Statement .brk := ⟨rfl, Nat.le_of_ble_eq_true rfl, Nat.le_of_ble_eq_true rfl⟩
theorem WidthAgreement.rti : WidthAgreement.Statement .rti := ⟨rfl, Nat.le_of_ble_eq_true rfl, Nat.le_of_ble_eq_true rfl⟩
theorem WidthAgreement.pha : WidthAgreement.Statement .pha := ⟨rfl, Nat.le_of_ble_eq_true rfl, Nat.le_of_ble_eq_true rfl⟩
theorem WidthAgreement.php : WidthAgreement.Statement .php := ⟨rfl, Nat.le_of_ble_eq_true rfl, Nat.le_of_ble_eq_true rfl⟩
theorem WidthAgreement.pla : WidthAgreement.Statement .pla := ⟨rfl, Nat.le_of_ble_eq_true rfl, Nat.le_of_ble_eq_true rfl⟩
theorem WidthAgreement.plp : WidthAgreement.Statement .plp := ⟨rfl, Nat.le_of_ble_eq_true rfl, Nat.le_of_ble_eq_true rfl⟩
theorem WidthAgreement.tsx : WidthAgreement.Statement .tsx := ⟨rfl, Nat.le_of_ble_eq_true rfl, Nat.le_of_ble_eq_true rfl⟩
theorem WidthAgreement.txs : WidthAgreement.Statement .txs := ⟨rfl, Nat.le_of_ble_eq_true rfl, Nat.le_of_ble_eq_true rfl⟩
theorem WidthAgreement.clc : WidthAgreement.Statement .clc := ⟨rfl, Nat.le_of_ble_eq_true rfl, Nat.le_of_ble_eq_true rfl⟩
theorem WidthAgreement.sec : WidthAgreement.Statement .sec := ⟨rfl, Nat.le_of_ble_eq_true rfl, Nat.le_of_ble_eq_true rfl⟩
theorem WidthAgreement.cli : WidthAgreement.Statement .cli := ⟨rfl, Nat.le_of_ble_eq_true rfl, Nat.le_of_ble_eq_true rfl⟩
theorem WidthAgreement.sei : WidthAgreement.Statement .sei := ⟨rfl, Nat.le_of_ble_eq_true rfl, Nat.le_of_ble_eq_true rfl⟩
theorem WidthAgreement.cld : WidthAgreement.Statement .cld := ⟨rfl, Nat.le_of_ble_eq_true rfl, Nat.le_of_ble_eq_true rfl⟩
theorem WidthAgreement.sed : WidthAgreement.Statement .sed := ⟨rfl, Nat.le_of_ble_eq_true rfl, Nat.le_of_ble_eq_true rfl⟩
theorem WidthAgreement.clv : WidthAgreement.Statement .clv := ⟨rfl, Nat.le_of_ble_eq_true rfl, Nat.le_of_ble_eq_true rfl⟩
theorem WidthAgreement.nop : WidthAgreement.Statement .nop := ⟨rfl, Nat.le_of_ble_eq_true rfl, Nat.le_of_ble_eq_true rfl⟩

end Sys2Proof.Laws
end

