-- ==== Sys2Proof/Laws/Step.lean ====
section
/-! SUPPORT. What one step does, said once. -/

namespace Sys2Proof.Machine

/-- An opcode byte has no entry exactly when it is one of the 105 unassigned bytes. -/
theorem opcodeEntry_eq_none : ∀ opc : Byte, opcodeEntry opc = none ↔ opc ∈ unassignedBytes := by
  have : ∀ opc : Byte, (opcodeEntry opc).isNone = decide (opc ∈ unassignedBytes) := by decide +kernel
  intro opc
  rw [← Option.isNone_iff_eq_none, this, decide_eq_true_iff]

/-- The two ways a Running engine steps: DecodeError, or the execution of the instruction its bytes at PC decode to. -/
theorem step_running_cases {s : State} (hr : s.run = .running) :
   (s.byteAt s.pc ∈ unassignedBytes ∧ step s = .next (raiseFault .decodeError (s.byteAt s.pc) s s.opcodeFetched)) ∨
   (s.byteAt s.pc ∉ unassignedBytes ∧ ∃ i rest, decode s.params.branchOperand (s.bytesFrom s.pc 3) = .ok (i, rest) ∧ step s = exec i s) := by
  cases he : opcodeEntry (s.byteAt s.pc) with
  | none =>
    refine .inl ⟨(opcodeEntry_eq_none _).mp he, ?_⟩
    simp only [step, engineStep, hr, runningStep, State.decodeAtPc, State.bytesFrom, decode, he]
  | some sh =>
    have hn : s.byteAt s.pc ∉ unassignedBytes := by rw [← opcodeEntry_eq_none, he]; simp
    have : ∃ i rest, decode s.params.branchOperand (s.bytesFrom s.pc 3) = .ok (i, rest) := by
      simp only [State.bytesFrom, decode, he]
      cases sh with
      | none i => exact ⟨_, _, rfl⟩
      | byte i => exact ⟨_, _, rfl⟩
      | word i => exact ⟨_, _, rfl⟩
      | branch i => cases s.params.branchOperand <;> exact ⟨_, _, rfl⟩
    obtain ⟨i, rest, h⟩ := this
    exact .inr ⟨hn, i, rest, h, by simp only [step, engineStep, hr, runningStep, State.decodeAtPc, h]⟩

end Sys2Proof.Machine
end

