-- ==== Sys2Proof/Tests/Slice0.lean ====
section
/-! SUPPORT. The model's own tests: the decoding of every word of the opcode map written out from spec/30_encoding.md, the
well-formedness checks on ill-formed terms, one-step vectors of spec/95_test_vectors.md, and for every obligation with
hypotheses a concrete state and operands that meet them. -/

namespace Sys2Proof.Tests

open Sys2Proof.Machine

/-! ### Helpers -/

/-- The start state of spec/95_test_vectors.md: PC = 0x0200, zero storage, all flags 0; observer 0 sees every address. -/
def base : State :=
  { State.reset with
    pc := 0x0200#16
    params := { branchOperand := .abs16, observers := [{ observer := 0, range := [{ first := 0x0000#16, last := 0xFFFF#16 }] }] } }

/-- `base` with the bytes of an instruction at 0x0200. -/
def code (bytes : List Byte) : State := base.placeBytes 0x0200#16 bytes

/-- One byte of storage set. -/
def poke (a : Word) (v : Byte) (s : State) : State := s.placeBytes a [v]

/-- `code` on a machine of the REL8 branch form. -/
def codeRel8 (bytes : List Byte) : State := { code bytes with params := { base.params with branchOperand := .rel8 } }

/-- All seven flags the same. -/
def flags (v : Bool) : Status := { c := v, z := v, i := v, d := v, b := v, v := v, n := v }

/-- The instruction a decoder answer holds. -/
def decoded (r : Except Reject (Instr × List Byte)) : Option Instr :=
  match r with
  | .ok (i, _) => some i
  | .error _ => none

/-- The state after one step, if there is one. -/
def after (s : State) : Option State :=
  match step s with
  | .next t => some t
  | .fault _ => none
  | .refused _ => none

/-- The accesses the observer saw. -/
def seen (t : State) : List Access := t.trace.map Event.access

/-! ### Well-formedness refuses -/

/-- R127: under ABS16 a branch with a one-byte offset is no instruction. -/
theorem test_wf_refuses_rel8_under_abs16 : Instr.wf .abs16 (.bpl (.rel8 0x05#8)) = false := by decide
/-- R127: under REL8 a branch with an absolute target is no instruction. -/
theorem test_wf_refuses_abs16_under_rel8 : Instr.wf .rel8 (.bvs (.abs16 0x0400#16)) = false := by decide
theorem test_wf_accepts : Instr.wf .abs16 (.bpl (.abs16 0x0400#16)) = true ∧ Instr.wf .rel8 (.ldaImm 0x2A#8) = true := by decide

/-! ### Decoding: every row of the opcode map (R84), its operand bytes 0x34 and 0x12, low byte first (R83) -/

theorem test_decode_load_1 :
    decoded (decode .abs16 [0xA9#8, 0x34#8]) = some (.ldaImm 0x34#8) ∧
    decoded (decode .abs16 [0xA5#8, 0x34#8]) = some (.ldaZp 0x34#8) ∧
    decoded (decode .abs16 [0xB5#8, 0x34#8]) = some (.ldaZpX 0x34#8) ∧
    decoded (decode .abs16 [0xAD#8, 0x34#8, 0x12#8]) = some (.ldaAbs 0x1234#16) ∧
    decoded (decode .abs16 [0xBD#8, 0x34#8, 0x12#8]) = some (.ldaAbsX 0x1234#16) ∧
    decoded (decode .abs16 [0xB9#8, 0x34#8, 0x12#8]) = some (.ldaAbsY 0x1234#16) ∧
    decoded (decode .abs16 [0xA1#8, 0x34#8]) = some (.ldaIndX 0x34#8) ∧
    decoded (decode .abs16 [0xB1#8, 0x34#8]) = some (.ldaIndY 0x34#8) :=
  ⟨rfl, rfl, rfl, rfl, rfl, rfl, rfl, rfl⟩
theorem test_decode_load_2 :
    decoded (decode .abs16 [0xA2#8, 0x34#8]) = some (.ldxImm 0x34#8) ∧
    decoded (decode .abs16 [0xA6#8, 0x34#8]) = some (.ldxZp 0x34#8) ∧
    decoded (decode .abs16 [0xB6#8, 0x34#8]) = some (.ldxZpY 0x34#8) ∧
    decoded (decode .abs16 [0xAE#8, 0x34#8, 0x12#8]) = some (.ldxAbs 0x1234#16) ∧
    decoded (decode .abs16 [0xBE#8, 0x34#8, 0x12#8]) = some (.ldxAbsY 0x1234#16) ∧
    decoded (decode .abs16 [0xA0#8, 0x34#8]) = some (.ldyImm 0x34#8) ∧
    decoded (decode .abs16 [0xA4#8, 0x34#8]) = some (.ldyZp 0x34#8) ∧
    decoded (decode .abs16 [0xB4#8, 0x34#8]) = some (.ldyZpX 0x34#8) :=
  ⟨rfl, rfl, rfl, rfl, rfl, rfl, rfl, rfl⟩
theorem test_decode_load_3 :
    decoded (decode .abs16 [0xAC#8, 0x34#8, 0x12#8]) = some (.ldyAbs 0x1234#16) ∧
    decoded (decode .abs16 [0xBC#8, 0x34#8, 0x12#8]) = some (.ldyAbsX 0x1234#16) :=
  ⟨rfl, rfl⟩
theorem test_decode_store_1 :
    decoded (decode .abs16 [0x85#8, 0x34#8]) = some (.staZp 0x34#8) ∧
    decoded (decode .abs16 [0x95#8, 0x34#8]) = some (.staZpX 0x34#8) ∧
    decoded (decode .abs16 [0x8D#8, 0x34#8, 0x12#8]) = some (.staAbs 0x1234#16) ∧
    decoded (decode .abs16 [0x9D#8, 0x34#8, 0x12#8]) = some (.staAbsX 0x1234#16) ∧
    decoded (decode .abs16 [0x99#8, 0x34#8, 0x12#8]) = some (.staAbsY 0x1234#16) ∧
    decoded (decode .abs16 [0x81#8, 0x34#8]) = some (.staIndX 0x34#8) ∧
    decoded (decode .abs16 [0x91#8, 0x34#8]) = some (.staIndY 0x34#8) ∧
    decoded (decode .abs16 [0x86#8, 0x34#8]) = some (.stxZp 0x34#8) :=
  ⟨rfl, rfl, rfl, rfl, rfl, rfl, rfl, rfl⟩
theorem test_decode_store_2 :
    decoded (decode .abs16 [0x96#8, 0x34#8]) = some (.stxZpY 0x34#8) ∧
    decoded (decode .abs16 [0x8E#8, 0x34#8, 0x12#8]) = some (.stxAbs 0x1234#16) ∧
    decoded (decode .abs16 [0x84#8, 0x34#8]) = some (.styZp 0x34#8) ∧
    decoded (decode .abs16 [0x94#8, 0x34#8]) = some (.styZpX 0x34#8) ∧
    decoded (decode .abs16 [0x8C#8, 0x34#8, 0x12#8]) = some (.styAbs 0x1234#16) :=
  ⟨rfl, rfl, rfl, rfl, rfl⟩
theorem test_decode_transfer :
    decoded (decode .abs16 [0xAA#8]) = some (.tax) ∧
    decoded (decode .abs16 [0xA8#8]) = some (.tay) ∧
    decoded (decode .abs16 [0x8A#8]) = some (.txa) ∧
    decoded (decode .abs16 [0x98#8]) = some (.tya) ∧
    decoded (decode .abs16 [0xBA#8]) = some (.tsx) ∧
    decoded (decode .abs16 [0x9A#8]) = some (.txs) :=
  ⟨rfl, rfl, rfl, rfl, rfl, rfl⟩
theorem test_decode_adc_sbc_1 :
    decoded (decode .abs16 [0x69#8, 0x34#8]) = some (.adcImm 0x34#8) ∧
    decoded (decode .abs16 [0x65#8, 0x34#8]) = some (.adcZp 0x34#8) ∧
    decoded (decode .abs16 [0x75#8, 0x34#8]) = some (.adcZpX 0x34#8) ∧
    decoded (decode .abs16 [0x6D#8, 0x34#8, 0x12#8]) = some (.adcAbs 0x1234#16) ∧
    decoded (decode .abs16 [0x7D#8, 0x34#8, 0x12#8]) = some (.adcAbsX 0x1234#16) ∧
    decoded (decode .abs16 [0x79#8, 0x34#8, 0x12#8]) = some (.adcAbsY 0x1234#16) ∧
    decoded (decode .abs16 [0x61#8, 0x34#8]) = some (.adcIndX 0x34#8) ∧
    decoded (decode .abs16 [0x71#8, 0x34#8]) = some (.adcIndY 0x34#8) :=
  ⟨rfl, rfl, rfl, rfl, rfl, rfl, rfl, rfl⟩
theorem test_decode_adc_sbc_2 :
    decoded (decode .abs16 [0xE9#8, 0x34#8]) = some (.sbcImm 0x34#8) ∧
    decoded (decode .abs16 [0xE5#8, 0x34#8]) = some (.sbcZp 0x34#8) ∧
    decoded (decode .abs16 [0xF5#8, 0x34#8]) = some (.sbcZpX 0x34#8) ∧
    decoded (decode .abs16 [0xED#8, 0x34#8, 0x12#8]) = some (.sbcAbs 0x1234#16) ∧
    decoded (decode .abs16 [0xFD#8, 0x34#8, 0x12#8]) = some (.sbcAbsX 0x1234#16) ∧
    decoded (decode .abs16 [0xF9#8, 0x34#8, 0x12#8]) = some (.sbcAbsY 0x1234#16) ∧
    decoded (decode .abs16 [0xE1#8, 0x34#8]) = some (.sbcIndX 0x34#8) ∧
    decoded (decode .abs16 [0xF1#8, 0x34#8]) = some (.sbcIndY 0x34#8) :=
  ⟨rfl, rfl, rfl, rfl, rfl, rfl, rfl, rfl⟩
theorem test_decode_compare_1 :
    decoded (decode .abs16 [0xC9#8, 0x34#8]) = some (.cmpImm 0x34#8) ∧
    decoded (decode .abs16 [0xC5#8, 0x34#8]) = some (.cmpZp 0x34#8) ∧
    decoded (decode .abs16 [0xD5#8, 0x34#8]) = some (.cmpZpX 0x34#8) ∧
    decoded (decode .abs16 [0xCD#8, 0x34#8, 0x12#8]) = some (.cmpAbs 0x1234#16) ∧
    decoded (decode .abs16 [0xDD#8, 0x34#8, 0x12#8]) = some (.cmpAbsX 0x1234#16) ∧
    decoded (decode .abs16 [0xD9#8, 0x34#8, 0x12#8]) = some (.cmpAbsY 0x1234#16) ∧
    decoded (decode .abs16 [0xC1#8, 0x34#8]) = some (.cmpIndX 0x34#8) ∧
    decoded (decode .abs16 [0xD1#8, 0x34#8]) = some (.cmpIndY 0x34#8) :=
  ⟨rfl, rfl, rfl, rfl, rfl, rfl, rfl, rfl⟩
theorem test_decode_compare_2 :
    decoded (decode .abs16 [0xE0#8, 0x34#8]) = some (.cpxImm 0x34#8) ∧
    decoded (decode .abs16 [0xE4#8, 0x34#8]) = some (.cpxZp 0x34#8) ∧
    decoded (decode .abs16 [0xEC#8, 0x34#8, 0x12#8]) = some (.cpxAbs 0x1234#16) ∧
    decoded (decode .abs16 [0xC0#8, 0x34#8]) = some (.cpyImm 0x34#8) ∧
    decoded (decode .abs16 [0xC4#8, 0x34#8]) = some (.cpyZp 0x34#8) ∧
    decoded (decode .abs16 [0xCC#8, 0x34#8, 0x12#8]) = some (.cpyAbs 0x1234#16) :=
  ⟨rfl, rfl, rfl, rfl, rfl, rfl⟩
theorem test_decode_count_1 :
    decoded (decode .abs16 [0xE6#8, 0x34#8]) = some (.incZp 0x34#8) ∧
    decoded (decode .abs16 [0xF6#8, 0x34#8]) = some (.incZpX 0x34#8) ∧
    decoded (decode .abs16 [0xEE#8, 0x34#8, 0x12#8]) = some (.incAbs 0x1234#16) ∧
    decoded (decode .abs16 [0xFE#8, 0x34#8, 0x12#8]) = some (.incAbsX 0x1234#16) ∧
    decoded (decode .abs16 [0xC6#8, 0x34#8]) = some (.decZp 0x34#8) ∧
    decoded (decode .abs16 [0xD6#8, 0x34#8]) = some (.decZpX 0x34#8) ∧
    decoded (decode .abs16 [0xCE#8, 0x34#8, 0x12#8]) = some (.decAbs 0x1234#16) ∧
    decoded (decode .abs16 [0xDE#8, 0x34#8, 0x12#8]) = some (.decAbsX 0x1234#16) :=
  ⟨rfl, rfl, rfl, rfl, rfl, rfl, rfl, rfl⟩
theorem test_decode_count_2 :
    decoded (decode .abs16 [0xE8#8]) = some (.inx) ∧
    decoded (decode .abs16 [0xC8#8]) = some (.iny) ∧
    decoded (decode .abs16 [0xCA#8]) = some (.dex) ∧
    decoded (decode .abs16 [0x88#8]) = some (.dey) :=
  ⟨rfl, rfl, rfl, rfl⟩
theorem test_decode_shift_1 :
    decoded (decode .abs16 [0x0A#8]) = some (.aslAcc) ∧
    decoded (decode .abs16 [0x06#8, 0x34#8]) = some (.aslZp 0x34#8) ∧
    decoded (decode .abs16 [0x16#8, 0x34#8]) = some (.aslZpX 0x34#8) ∧
    decoded (decode .abs16 [0x0E#8, 0x34#8, 0x12#8]) = some (.aslAbs 0x1234#16) ∧
    decoded (decode .abs16 [0x1E#8, 0x34#8, 0x12#8]) = some (.aslAbsX 0x1234#16) ∧
    decoded (decode .abs16 [0x4A#8]) = some (.lsrAcc) ∧
    decoded (decode .abs16 [0x46#8, 0x34#8]) = some (.lsrZp 0x34#8) ∧
    decoded (decode .abs16 [0x56#8, 0x34#8]) = some (.lsrZpX 0x34#8) :=
  ⟨rfl, rfl, rfl, rfl, rfl, rfl, rfl, rfl⟩
theorem test_decode_shift_2 :
    decoded (decode .abs16 [0x4E#8, 0x34#8, 0x12#8]) = some (.lsrAbs 0x1234#16) ∧
    decoded (decode .abs16 [0x5E#8, 0x34#8, 0x12#8]) = some (.lsrAbsX 0x1234#16) ∧
    decoded (decode .abs16 [0x2A#8]) = some (.rolAcc) ∧
    decoded (decode .abs16 [0x26#8, 0x34#8]) = some (.rolZp 0x34#8) ∧
    decoded (decode .abs16 [0x36#8, 0x34#8]) = some (.rolZpX 0x34#8) ∧
    decoded (decode .abs16 [0x2E#8, 0x34#8, 0x12#8]) = some (.rolAbs 0x1234#16) ∧
    decoded (decode .abs16 [0x3E#8, 0x34#8, 0x12#8]) = some (.rolAbsX 0x1234#16) ∧
    decoded (decode .abs16 [0x6A#8]) = some (.rorAcc) :=
  ⟨rfl, rfl, rfl, rfl, rfl, rfl, rfl, rfl⟩
theorem test_decode_shift_3 :
    decoded (decode .abs16 [0x66#8, 0x34#8]) = some (.rorZp 0x34#8) ∧
    decoded (decode .abs16 [0x76#8, 0x34#8]) = some (.rorZpX 0x34#8) ∧
    decoded (decode .abs16 [0x6E#8, 0x34#8, 0x12#8]) = some (.rorAbs 0x1234#16) ∧
    decoded (decode .abs16 [0x7E#8, 0x34#8, 0x12#8]) = some (.rorAbsX 0x1234#16) :=
  ⟨rfl, rfl, rfl, rfl⟩
theorem test_decode_logic_1 :
    decoded (decode .abs16 [0x29#8, 0x34#8]) = some (.andImm 0x34#8) ∧
    decoded (decode .abs16 [0x25#8, 0x34#8]) = some (.andZp 0x34#8) ∧
    decoded (decode .abs16 [0x35#8, 0x34#8]) = some (.andZpX 0x34#8) ∧
    decoded (decode .abs16 [0x2D#8, 0x34#8, 0x12#8]) = some (.andAbs 0x1234#16) ∧
    decoded (decode .abs16 [0x3D#8, 0x34#8, 0x12#8]) = some (.andAbsX 0x1234#16) ∧
    decoded (decode .abs16 [0x39#8, 0x34#8, 0x12#8]) = some (.andAbsY 0x1234#16) ∧
    decoded (decode .abs16 [0x21#8, 0x34#8]) = some (.andIndX 0x34#8) ∧
    decoded (decode .abs16 [0x31#8, 0x34#8]) = some (.andIndY 0x34#8) :=
  ⟨rfl, rfl, rfl, rfl, rfl, rfl, rfl, rfl⟩
theorem test_decode_logic_2 :
    decoded (decode .abs16 [0x09#8, 0x34#8]) = some (.oraImm 0x34#8) ∧
    decoded (decode .abs16 [0x05#8, 0x34#8]) = some (.oraZp 0x34#8) ∧
    decoded (decode .abs16 [0x15#8, 0x34#8]) = some (.oraZpX 0x34#8) ∧
    decoded (decode .abs16 [0x0D#8, 0x34#8, 0x12#8]) = some (.oraAbs 0x1234#16) ∧
    decoded (decode .abs16 [0x1D#8, 0x34#8, 0x12#8]) = some (.oraAbsX 0x1234#16) ∧
    decoded (decode .abs16 [0x19#8, 0x34#8, 0x12#8]) = some (.oraAbsY 0x1234#16) ∧
    decoded (decode .abs16 [0x01#8, 0x34#8]) = some (.oraIndX 0x34#8) ∧
    decoded (decode .abs16 [0x11#8, 0x34#8]) = some (.oraIndY 0x34#8) :=
  ⟨rfl, rfl, rfl, rfl, rfl, rfl, rfl, rfl⟩
theorem test_decode_logic_3 :
    decoded (decode .abs16 [0x49#8, 0x34#8]) = some (.eorImm 0x34#8) ∧
    decoded (decode .abs16 [0x45#8, 0x34#8]) = some (.eorZp 0x34#8) ∧
    decoded (decode .abs16 [0x55#8, 0x34#8]) = some (.eorZpX 0x34#8) ∧
    decoded (decode .abs16 [0x4D#8, 0x34#8, 0x12#8]) = some (.eorAbs 0x1234#16) ∧
    decoded (decode .abs16 [0x5D#8, 0x34#8, 0x12#8]) = some (.eorAbsX 0x1234#16) ∧
    decoded (decode .abs16 [0x59#8, 0x34#8, 0x12#8]) = some (.eorAbsY 0x1234#16) ∧
    decoded (decode .abs16 [0x41#8, 0x34#8]) = some (.eorIndX 0x34#8) ∧
    decoded (decode .abs16 [0x51#8, 0x34#8]) = some (.eorIndY 0x34#8) :=
  ⟨rfl, rfl, rfl, rfl, rfl, rfl, rfl, rfl⟩
theorem test_decode_logic_4 :
    decoded (decode .abs16 [0x24#8, 0x34#8]) = some (.bitZp 0x34#8) ∧
    decoded (decode .abs16 [0x2C#8, 0x34#8, 0x12#8]) = some (.bitAbs 0x1234#16) :=
  ⟨rfl, rfl⟩
theorem test_decode_branch :
    decoded (decode .abs16 [0x90#8, 0x34#8, 0x12#8]) = some (.bcc (.abs16 0x1234#16)) ∧
    decoded (decode .abs16 [0xB0#8, 0x34#8, 0x12#8]) = some (.bcs (.abs16 0x1234#16)) ∧
    decoded (decode .abs16 [0xF0#8, 0x34#8, 0x12#8]) = some (.beq (.abs16 0x1234#16)) ∧
    decoded (decode .abs16 [0x30#8, 0x34#8, 0x12#8]) = some (.bmi (.abs16 0x1234#16)) ∧
    decoded (decode .abs16 [0xD0#8, 0x34#8, 0x12#8]) = some (.bne (.abs16 0x1234#16)) ∧
    decoded (decode .abs16 [0x10#8, 0x34#8, 0x12#8]) = some (.bpl (.abs16 0x1234#16)) ∧
    decoded (decode .abs16 [0x50#8, 0x34#8, 0x12#8]) = some (.bvc (.abs16 0x1234#16)) ∧
    decoded (decode .abs16 [0x70#8, 0x34#8, 0x12#8]) = some (.bvs (.abs16 0x1234#16)) :=
  ⟨rfl, rfl, rfl, rfl, rfl, rfl, rfl, rfl⟩
theorem test_decode_jump :
    decoded (decode .abs16 [0x4C#8, 0x34#8, 0x12#8]) = some (.jmpAbs 0x1234#16) ∧
    decoded (decode .abs16 [0x6C#8, 0x34#8, 0x12#8]) = some (.jmpInd 0x1234#16) ∧
    decoded (decode .abs16 [0x20#8, 0x34#8, 0x12#8]) = some (.jsrAbs 0x1234#16) ∧
    decoded (decode .abs16 [0x60#8]) = some (.rts) ∧
    decoded (decode .abs16 [0x00#8]) = some (.brk) ∧
    decoded (decode .abs16 [0x40#8]) = some (.rti) :=
  ⟨rfl, rfl, rfl, rfl, rfl, rfl⟩
theorem test_decode_stack :
    decoded (decode .abs16 [0x48#8]) = some (.pha) ∧
    decoded (decode .abs16 [0x08#8]) = some (.php) ∧
    decoded (decode .abs16 [0x68#8]) = some (.pla) ∧
    decoded (decode .abs16 [0x28#8]) = some (.plp) :=
  ⟨rfl, rfl, rfl, rfl⟩
theorem test_decode_flag :
    decoded (decode .abs16 [0x18#8]) = some (.clc) ∧
    decoded (decode .abs16 [0x38#8]) = some (.sec) ∧
    decoded (decode .abs16 [0x58#8]) = some (.cli) ∧
    decoded (decode .abs16 [0x78#8]) = some (.sei) ∧
    decoded (decode .abs16 [0xD8#8]) = some (.cld) ∧
    decoded (decode .abs16 [0xF8#8]) = some (.sed) ∧
    decoded (decode .abs16 [0xB8#8]) = some (.clv) ∧
    decoded (decode .abs16 [0xEA#8]) = some (.nop) :=
  ⟨rfl, rfl, rfl, rfl, rfl, rfl, rfl, rfl⟩

/-- R127: under REL8 a branch has one operand byte. -/
theorem test_decode_branch_rel8 : decoded (decode .rel8 [0xF0#8, 0xFE#8]) = some (.beq (.rel8 0xFE#8)) := rfl
/-- R87: an unassigned byte is rejected by name, and so are missing operand bytes. -/
theorem test_decode_rejects :
    decode .abs16 [0x02#8, 0x00#8, 0x00#8] = .error (.unassigned 0x02#8) ∧ decode .abs16 [0xFF#8] = .error (.unassigned 0xFF#8) ∧
    decode .abs16 [0xAD#8, 0x00#8] = .error (.truncated 0xAD#8) ∧ decode .rel8 [] = .error .empty := ⟨rfl, rfl, rfl, rfl⟩
/-- The host's words: bits 7 to 0 the opcode, bits 15 to 8 the low operand byte. -/
theorem test_decodeTableWord :
    decodeTableWord 24 0x60008D = some (.staAbs 0x6000#16) ∧ decodeTableWord 8 0xEA = some .nop ∧
    decodeTableWord 8 0xAD = some (.ldaAbs 0x0000#16) ∧ decodeTableWord 8 0x02 = none := ⟨rfl, rfl, rfl, rfl⟩
/-- The placed word is what the next step runs. -/
theorem test_withFetchWord : (after (State.reset.withFetchWord 16 0x2AA9)).map (fun t => (t.a, t.pc)) = some (0x2A#8, 0x0002#16) := by
  decide

/-! ### One step: the vectors of spec/95_test_vectors.md -/

/-- Section 2.1: LDA #00, and LDA abs,X that wraps. -/
theorem test_lda :
    (after ({ code [0xA9#8, 0x00#8] with a := 0x05#8 })).map (fun t => (t.a, t.p.z, t.p.n, t.pc)) =
      some (0x00#8, true, false, 0x0202#16) ∧
    (after ({ poke 0x0000#16 0x55#8 (code [0xBD#8, 0xFF#8, 0xFF#8]) with x := 0x01#8 })).map (fun t => (t.a, t.p.z, t.p.n, t.pc, seen t)) =
      some (0x55#8, false, false, 0x0203#16, [.onRead 0x0200#16, .onRead 0x0201#16, .onRead 0x0202#16, .onRead 0x0000#16]) := by
  refine ⟨?_, ?_⟩ <;> decide
/-- Section 2.7: the two indirect modes, their pointer wraps and the wrap of the sum. -/
theorem test_lda_indirect :
    (after ({ poke 0x1234#16 0x9A#8 (poke 0x0000#16 0x12#8 (poke 0x00FF#16 0x34#8 (code [0xA1#8, 0xFE#8]))) with x := 0x01#8 })).map (fun t => (t.a, t.p.n, seen t)) =
      some (0x9A#8, true, [.onRead 0x0200#16, .onRead 0x0201#16, .onRead 0x00FF#16, .onRead 0x0000#16, .onRead 0x1234#16]) ∧
    (after ({ poke 0x3000#16 0x01#8 (poke 0x0000#16 0x30#8 (poke 0x00FF#16 0x00#8 (code [0xB1#8, 0xFF#8]))) with y := 0x00#8 })).map (fun t => (t.a, seen t)) =
      some (0x01#8, [.onRead 0x0200#16, .onRead 0x0201#16, .onRead 0x00FF#16, .onRead 0x0000#16, .onRead 0x3000#16]) ∧
    (after ({ poke 0x1310#16 0xAB#8 (poke 0x0011#16 0x12#8 (poke 0x0010#16 0xF0#8 (code [0xB1#8, 0x10#8]))) with y := 0x20#8 })).map (fun t => t.a) = some (0xAB#8) ∧
    (after ({ poke 0x0000#16 0x42#8 (poke 0x0011#16 0xFF#8 (poke 0x0010#16 0xFF#8 (code [0xB1#8, 0x10#8]))) with y := 0x01#8 })).map (fun t => t.a) = some (0x42#8) := by
  refine ⟨?_, ?_, ?_, ?_⟩ <;> decide
/-- S8. -/
theorem test_lda_zeroPageX_wraps :
    (after ({ poke 0x0001#16 0x66#8 (code [0xB5#8, 0xFF#8]) with x := 0x02#8 })).map (fun t => (t.a, seen t)) =
      some (0x66#8, [.onRead 0x0200#16, .onRead 0x0201#16, .onRead 0x0001#16]) := by
  decide
/-- S2, and LDX zp,Y that wraps. -/
theorem test_ldx_ldy :
    (after (code [0xA2#8, 0x7F#8])).map (fun t => (t.x, t.p.z, t.p.n)) =
      some (0x7F#8, false, false) ∧
    (after ({ poke 0x0010#16 0x77#8 (code [0xB6#8, 0xF0#8]) with y := 0x20#8 })).map (fun t => t.x) = some (0x77#8) ∧
    (after (code [0xA0#8, 0xFF#8])).map (fun t => (t.y, t.p.z, t.p.n)) =
      some (0xFF#8, false, true) := by
  refine ⟨?_, ?_, ?_⟩ <;> decide
/-- Section 2.1: STA abs, STX zp, STY zp,X. -/
theorem test_stores :
    (after ({ code [0x8D#8, 0x00#8, 0x60#8] with a := 0x42#8 })).map (fun t => (t.byteAt 0x6000#16, t.p, seen t)) =
      some (0x42#8, Status.clear, [.onRead 0x0200#16, .onRead 0x0201#16, .onRead 0x0202#16, .onWrite 0x6000#16 0x42#8]) ∧
    (after ({ code [0x86#8, 0x10#8] with x := 0x9C#8 })).map (fun t => t.byteAt 0x0010#16) = some (0x9C#8) ∧
    (after ({ code [0x94#8, 0x10#8] with y := 0x01#8, x := 0x05#8 })).map (fun t => t.byteAt 0x0015#16) = some (0x01#8) := by
  refine ⟨?_, ?_, ?_⟩ <;> decide
theorem test_transfers :
    (after ({ code [0xAA#8] with a := 0x00#8, x := 0x05#8 })).map (fun t => (t.x, t.p.z, t.p.n)) =
      some (0x00#8, true, false) ∧
    (after ({ code [0xA8#8] with a := 0x80#8 })).map (fun t => (t.y, t.p.z, t.p.n)) =
      some (0x80#8, false, true) ∧
    (after ({ code [0x8A#8] with x := 0x01#8, a := 0x80#8 })).map (fun t => (t.a, t.p.z, t.p.n)) =
      some (0x01#8, false, false) ∧
    (after ({ code [0x98#8] with y := 0xFF#8 })).map (fun t => (t.a, t.p.z, t.p.n)) =
      some (0xFF#8, false, true) := by
  refine ⟨?_, ?_, ?_, ?_⟩ <;> decide
theorem test_stack_pointer_transfers :
    (after ({ code [0xBA#8] with sp := 0x00#8, x := 0x01#8 })).map (fun t => (t.x, t.p.z, t.p.n)) =
      some (0x00#8, true, false) ∧
    (after ({ code [0xBA#8] with sp := 0xFD#8 })).map (fun t => (t.x, t.p.z, t.p.n)) =
      some (0xFD#8, false, true) ∧
    (after ({ code [0x9A#8] with x := 0x00#8, sp := 0x55#8, p := { Status.clear with z := true, n := true } })).map (fun t => (t.sp, t.p.z, t.p.n)) =
      some (0x00#8, true, true) := by
  refine ⟨?_, ?_, ?_⟩ <;> decide
/-- S3, S4 and section 2.2. -/
theorem test_adc :
    (after ({ code [0x69#8, 0x01#8] with a := 0x7F#8, p := { Status.clear with c := false } })).map (fun t => (t.a, t.p.c, t.p.v, t.p.z, t.p.n)) =
      some (0x80#8, false, true, false, true) ∧
    (after ({ code [0x69#8, 0x01#8] with a := 0xFF#8, p := { Status.clear with c := false } })).map (fun t => (t.a, t.p.c, t.p.v, t.p.z, t.p.n)) =
      some (0x00#8, true, false, true, false) ∧
    (after ({ code [0x69#8, 0x80#8] with a := 0x80#8, p := { Status.clear with c := false } })).map (fun t => (t.a, t.p.c, t.p.v, t.p.z, t.p.n)) =
      some (0x00#8, true, true, true, false) ∧
    (after ({ code [0x69#8, 0x50#8] with a := 0x50#8, p := { Status.clear with c := true } })).map (fun t => (t.a, t.p.c, t.p.v, t.p.z, t.p.n)) =
      some (0xA1#8, false, true, false, true) ∧
    (after ({ code [0x69#8, 0xFF#8] with a := 0xFF#8, p := { Status.clear with c := true } })).map (fun t => (t.a, t.p.c, t.p.v, t.p.z, t.p.n)) =
      some (0xFF#8, true, false, false, true) ∧
    (after ({ code [0x69#8, 0x00#8] with a := 0x00#8, p := { Status.clear with c := false } })).map (fun t => (t.a, t.p.c, t.p.v, t.p.z, t.p.n)) =
      some (0x00#8, false, false, true, false) ∧
    (after ({ code [0x69#8, 0x00#8] with a := 0x00#8, p := { Status.clear with c := true } })).map (fun t => (t.a, t.p.c, t.p.v, t.p.z, t.p.n)) =
      some (0x01#8, false, false, false, false) := by
  refine ⟨?_, ?_, ?_, ?_, ?_, ?_, ?_⟩ <;> decide
/-- S5 and section 2.2. -/
theorem test_sbc :
    (after ({ code [0xE9#8, 0x03#8] with a := 0x05#8, p := { Status.clear with c := true } })).map (fun t => (t.a, t.p.c, t.p.v, t.p.z, t.p.n)) =
      some (0x02#8, true, false, false, false) ∧
    (after ({ code [0xE9#8, 0x05#8] with a := 0x03#8, p := { Status.clear with c := true } })).map (fun t => (t.a, t.p.c, t.p.v, t.p.z, t.p.n)) =
      some (0xFE#8, false, false, false, true) ∧
    (after ({ code [0xE9#8, 0x01#8] with a := 0x80#8, p := { Status.clear with c := true } })).map (fun t => (t.a, t.p.c, t.p.v, t.p.z, t.p.n)) =
      some (0x7F#8, true, true, false, false) ∧
    (after ({ code [0xE9#8, 0x00#8] with a := 0x00#8, p := { Status.clear with c := false } })).map (fun t => (t.a, t.p.c, t.p.v, t.p.z, t.p.n)) =
      some (0xFF#8, false, false, false, true) ∧
    (after ({ code [0xE9#8, 0xFF#8] with a := 0x7F#8, p := { Status.clear with c := true } })).map (fun t => (t.a, t.p.c, t.p.v, t.p.z, t.p.n)) =
      some (0x80#8, false, true, false, true) := by
  refine ⟨?_, ?_, ?_, ?_, ?_⟩ <;> decide
theorem test_decimal_faults :
    (after ({ code [0x69#8, 0x01#8] with a := 0x07#8, p := { Status.clear with d := true } })).map (fun t => (t.run, t.pc, t.a, seen t)) =
      some (.faulted .unsupportedFeature 0x0200#16 0x69#8, 0x0200#16, 0x07#8, [.onRead 0x0200#16]) ∧
    (after ({ code [0xE9#8, 0x00#8] with p := { Status.clear with d := true } })).map (fun t => (t.run, t.pc, seen t)) =
      some (.faulted .unsupportedFeature 0x0200#16 0xE9#8, 0x0200#16, [.onRead 0x0200#16]) := by
  refine ⟨?_, ?_⟩ <;> decide
theorem test_compare :
    (after ({ code [0xC9#8, 0x10#8] with a := 0x10#8, p := { Status.clear with v := true } })).map (fun t => (t.p.c, t.p.z, t.p.n, t.a, t.p.v)) =
      some (true, true, false, 0x10#8, true) ∧
    (after ({ code [0xC9#8, 0x20#8] with a := 0x10#8, p := { Status.clear with v := true } })).map (fun t => (t.p.c, t.p.z, t.p.n, t.a, t.p.v)) =
      some (false, false, true, 0x10#8, true) ∧
    (after ({ code [0xC9#8, 0x10#8] with a := 0x20#8, p := { Status.clear with v := true } })).map (fun t => (t.p.c, t.p.z, t.p.n, t.a, t.p.v)) =
      some (true, false, false, 0x20#8, true) ∧
    (after ({ code [0xC9#8, 0x80#8] with a := 0x00#8, p := { Status.clear with v := true } })).map (fun t => (t.p.c, t.p.z, t.p.n, t.a, t.p.v)) =
      some (false, false, true, 0x00#8, true) ∧
    (after ({ code [0xC9#8, 0x00#8] with a := 0xFF#8, p := { Status.clear with v := true } })).map (fun t => (t.p.c, t.p.z, t.p.n, t.a, t.p.v)) =
      some (true, false, true, 0xFF#8, true) ∧
    (after ({ code [0xE0#8, 0x05#8] with x := 0x05#8 })).map (fun t => (t.p.c, t.p.z, t.p.n)) =
      some (true, true, false) ∧
    (after ({ code [0xC0#8, 0x01#8] with y := 0x00#8 })).map (fun t => (t.p.c, t.p.z, t.p.n)) =
      some (false, false, true) := by
  refine ⟨?_, ?_, ?_, ?_, ?_, ?_, ?_⟩ <;> decide
theorem test_inc_dec :
    (after (poke 0x0010#16 0xFF#8 (code [0xE6#8, 0x10#8]))).map (fun t => (t.byteAt 0x0010#16, t.p.z, t.p.n, t.p.c, seen t)) =
      some (0x00#8, true, false, false, [.onRead 0x0200#16, .onRead 0x0201#16, .onRead 0x0010#16, .onWrite 0x0010#16 0x00#8]) ∧
    (after (poke 0x0010#16 0x7F#8 (code [0xE6#8, 0x10#8]))).map (fun t => (t.byteAt 0x0010#16, t.p.z, t.p.n)) =
      some (0x80#8, false, true) ∧
    (after (code [0xC6#8, 0x10#8])).map (fun t => (t.byteAt 0x0010#16, t.p.z, t.p.n)) =
      some (0xFF#8, false, true) ∧
    (after (poke 0x0010#16 0x01#8 (code [0xC6#8, 0x10#8]))).map (fun t => (t.byteAt 0x0010#16, t.p.z, t.p.n)) =
      some (0x00#8, true, false) := by
  refine ⟨?_, ?_, ?_, ?_⟩ <;> decide
theorem test_count_registers :
    (after ({ code [0xE8#8] with x := 0xFF#8 })).map (fun t => (t.x, t.p.z, t.p.n)) =
      some (0x00#8, true, false) ∧
    (after ({ code [0xC8#8] with y := 0x7F#8 })).map (fun t => (t.y, t.p.z, t.p.n)) =
      some (0x80#8, false, true) ∧
    (after ({ code [0xCA#8] with x := 0x01#8 })).map (fun t => (t.x, t.p.z, t.p.n)) =
      some (0x00#8, true, false) ∧
    (after ({ code [0x88#8] with y := 0x00#8 })).map (fun t => (t.y, t.p.z, t.p.n)) =
      some (0xFF#8, false, true) := by
  refine ⟨?_, ?_, ?_, ?_⟩ <;> decide
theorem test_shifts_accumulator :
    (after ({ code [0x0A#8] with a := 0x80#8, p := { Status.clear with c := false } })).map (fun t => (t.a, t.p.c, t.p.z, t.p.n)) =
      some (0x00#8, true, true, false) ∧
    (after ({ code [0x0A#8] with a := 0x41#8, p := { Status.clear with c := false } })).map (fun t => (t.a, t.p.c, t.p.z, t.p.n)) =
      some (0x82#8, false, false, true) ∧
    (after ({ code [0x4A#8] with a := 0x01#8, p := { Status.clear with c := false } })).map (fun t => (t.a, t.p.c, t.p.z, t.p.n)) =
      some (0x00#8, true, true, false) ∧
    (after ({ code [0x4A#8] with a := 0x80#8, p := { Status.clear with c := false } })).map (fun t => (t.a, t.p.c, t.p.z, t.p.n)) =
      some (0x40#8, false, false, false) ∧
    (after ({ code [0x2A#8] with a := 0x80#8, p := { Status.clear with c := true } })).map (fun t => (t.a, t.p.c, t.p.z, t.p.n)) =
      some (0x01#8, true, false, false) ∧
    (after ({ code [0x2A#8] with a := 0x00#8, p := { Status.clear with c := false } })).map (fun t => (t.a, t.p.c, t.p.z, t.p.n)) =
      some (0x00#8, false, true, false) ∧
    (after ({ code [0x6A#8] with a := 0x01#8, p := { Status.clear with c := true } })).map (fun t => (t.a, t.p.c, t.p.z, t.p.n)) =
      some (0x80#8, true, false, true) ∧
    (after ({ code [0x6A#8] with a := 0x02#8, p := { Status.clear with c := false } })).map (fun t => (t.a, t.p.c, t.p.z, t.p.n)) =
      some (0x01#8, false, false, false) := by
  refine ⟨?_, ?_, ?_, ?_, ?_, ?_, ?_, ?_⟩ <;> decide
theorem test_shift_memory :
    (after (poke 0x0010#16 0x80#8 (code [0x06#8, 0x10#8]))).map (fun t => (t.byteAt 0x0010#16, t.p.c, t.p.z, seen t)) =
      some (0x00#8, true, true, [.onRead 0x0200#16, .onRead 0x0201#16, .onRead 0x0010#16, .onWrite 0x0010#16 0x00#8]) := by
  decide
theorem test_logic :
    (after ({ code [0x29#8, 0x0F#8] with a := 0xF0#8 })).map (fun t => (t.a, t.p.z, t.p.n)) =
      some (0x00#8, true, false) ∧
    (after ({ code [0x09#8, 0x01#8] with a := 0x80#8 })).map (fun t => (t.a, t.p.z, t.p.n)) =
      some (0x81#8, false, true) ∧
    (after ({ code [0x49#8, 0xFF#8] with a := 0xFF#8 })).map (fun t => (t.a, t.p.z, t.p.n)) =
      some (0x00#8, true, false) ∧
    (after ({ code [0x49#8, 0xFF#8] with a := 0x0F#8 })).map (fun t => (t.a, t.p.z, t.p.n)) =
      some (0xF0#8, false, true) := by
  refine ⟨?_, ?_, ?_, ?_⟩ <;> decide
theorem test_bit :
    (after ({ poke 0x0010#16 0xC0#8 (code [0x24#8, 0x10#8]) with a := 0x01#8 })).map (fun t => (t.p.z, t.p.v, t.p.n, t.a)) =
      some (true, true, true, 0x01#8) ∧
    (after ({ poke 0x0010#16 0x3F#8 (code [0x24#8, 0x10#8]) with a := 0xFF#8, p := { Status.clear with z := true, v := true, n := true } })).map (fun t => (t.p.z, t.p.v, t.p.n)) =
      some (false, false, false) := by
  refine ⟨?_, ?_⟩ <;> decide
/-- Section 2.4, ABS16: the operand is the target. -/
theorem test_branches_taken :
    (after ({ code [0x90#8, 0x00#8, 0x04#8] with p := { Status.clear with c := false } })).map (fun t => t.pc) = some (0x0400#16) ∧
    (after ({ code [0xB0#8, 0x00#8, 0x04#8] with p := { Status.clear with c := true } })).map (fun t => t.pc) = some (0x0400#16) ∧
    (after ({ code [0xF0#8, 0x00#8, 0x04#8] with p := { Status.clear with z := true } })).map (fun t => t.pc) = some (0x0400#16) ∧
    (after ({ code [0x30#8, 0x00#8, 0x04#8] with p := { Status.clear with n := true } })).map (fun t => t.pc) = some (0x0400#16) ∧
    (after ({ code [0xD0#8, 0x00#8, 0x04#8] with p := { Status.clear with z := false } })).map (fun t => t.pc) = some (0x0400#16) ∧
    (after ({ code [0x10#8, 0x00#8, 0x04#8] with p := { Status.clear with n := false } })).map (fun t => t.pc) = some (0x0400#16) ∧
    (after ({ code [0x50#8, 0x00#8, 0x04#8] with p := { Status.clear with v := false } })).map (fun t => t.pc) = some (0x0400#16) ∧
    (after ({ code [0x70#8, 0x00#8, 0x04#8] with p := { Status.clear with v := true } })).map (fun t => t.pc) = some (0x0400#16) := by
  refine ⟨?_, ?_, ?_, ?_, ?_, ?_, ?_, ?_⟩ <;> decide
theorem test_branches_not_taken :
    (after ({ code [0x90#8, 0x00#8, 0x04#8] with p := { Status.clear with c := true } })).map (fun t => t.pc) = some (0x0203#16) ∧
    (after ({ code [0xB0#8, 0x00#8, 0x04#8] with p := { Status.clear with c := false } })).map (fun t => t.pc) = some (0x0203#16) ∧
    (after ({ code [0xF0#8, 0x00#8, 0x04#8] with p := { Status.clear with z := false } })).map (fun t => t.pc) = some (0x0203#16) ∧
    (after ({ code [0x30#8, 0x00#8, 0x04#8] with p := { Status.clear with n := false } })).map (fun t => t.pc) = some (0x0203#16) ∧
    (after ({ code [0xD0#8, 0x00#8, 0x04#8] with p := { Status.clear with z := true } })).map (fun t => t.pc) = some (0x0203#16) ∧
    (after ({ code [0x10#8, 0x00#8, 0x04#8] with p := { Status.clear with n := true } })).map (fun t => t.pc) = some (0x0203#16) ∧
    (after ({ code [0x50#8, 0x00#8, 0x04#8] with p := { Status.clear with v := true } })).map (fun t => t.pc) = some (0x0203#16) ∧
    (after ({ code [0x70#8, 0x00#8, 0x04#8] with p := { Status.clear with v := false } })).map (fun t => t.pc) = some (0x0203#16) := by
  refine ⟨?_, ?_, ?_, ?_, ?_, ?_, ?_, ?_⟩ <;> decide
/-- Section 2.4, REL8. -/
theorem test_branches_rel8 :
    (after ({ codeRel8 [0xF0#8, 0x05#8] with p := { Status.clear with z := true } })).map (fun t => t.pc) = some (0x0207#16) ∧
    (after ({ codeRel8 [0xF0#8, 0xFE#8] with p := { Status.clear with z := true } })).map (fun t => t.pc) = some (0x0200#16) ∧
    (after ({ codeRel8 [0xF0#8, 0x80#8] with p := { Status.clear with z := true } })).map (fun t => t.pc) = some (0x0182#16) ∧
    (after (codeRel8 [0xF0#8, 0x05#8])).map (fun t => t.pc) = some (0x0202#16) := by
  refine ⟨?_, ?_, ?_, ?_⟩ <;> decide
theorem test_jumps :
    (after (code [0x4C#8, 0x00#8, 0x04#8])).map (fun t => t.pc) = some (0x0400#16) ∧
    (after (poke 0x0301#16 0x04#8 (code [0x6C#8, 0x00#8, 0x03#8]))).map (fun t => (t.pc, seen t)) =
      some (0x0400#16, [.onRead 0x0200#16, .onRead 0x0201#16, .onRead 0x0202#16, .onRead 0x0300#16, .onRead 0x0301#16]) ∧
    (after (code [0x6C#8, 0xFF#8, 0x02#8])).map (fun t => (t.run, seen t)) =
      some (.faulted .unsupportedFeature 0x0200#16 0x6C#8, [.onRead 0x0200#16, .onRead 0x0201#16, .onRead 0x0202#16]) := by
  refine ⟨?_, ?_, ?_⟩ <;> decide
theorem test_jsr :
    (after ({ code [0x20#8, 0x00#8, 0x10#8] with sp := 0xFF#8 })).map (fun t => (t.byteAt 0x01FF#16, t.byteAt 0x01FE#16, t.sp, t.pc, seen t)) =
      some (0x02#8, 0x02#8, 0xFD#8, 0x1000#16, [.onRead 0x0200#16, .onRead 0x0201#16, .onRead 0x0202#16, .onWrite 0x01FF#16 0x02#8, .onWrite 0x01FE#16 0x02#8]) ∧
    (after ({ code [0x20#8, 0x00#8, 0x10#8] with sp := 0x00#8 })).map (fun t => (t.byteAt 0x0100#16, t.byteAt 0x01FF#16, t.sp)) =
      some (0x02#8, 0x02#8, 0xFE#8) := by
  refine ⟨?_, ?_⟩ <;> decide
theorem test_rts :
    (after ({ poke 0x01FF#16 0x02#8 (poke 0x01FE#16 0x02#8 (code [0x60#8])) with sp := 0xFD#8 })).map (fun t => (t.pc, t.sp)) =
      some (0x0203#16, 0xFF#8) ∧
    (after ({ poke 0x01FF#16 0xFF#8 (poke 0x01FE#16 0xFF#8 (code [0x60#8])) with sp := 0xFD#8 })).map (fun t => (t.pc, t.sp)) =
      some (0x0000#16, 0xFF#8) := by
  refine ⟨?_, ?_⟩ <;> decide
theorem test_brk :
    (after { (poke 0xFFFF#16 0x03#8 base) with pc := 0x0208#16, sp := 0xFF#8, p := { Status.clear with c := true } }).map
      (fun t => (t.byteAt 0x01FF#16, t.byteAt 0x01FE#16, t.byteAt 0x01FD#16, t.sp, t.pc)) =
      some (0x40#8, 0x02#8, 0x0A#8, 0xFC#8, 0x0300#16) ∧
    (after { (poke 0xFFFF#16 0x03#8 base) with pc := 0x0208#16, sp := 0xFF#8, p := { Status.clear with c := true } }).map
      (fun t => (t.p, seen t)) = some ({ Status.clear with c := true, b := true },
        [.onRead 0x0208#16, .onWrite 0x01FF#16 0x40#8, .onWrite 0x01FE#16 0x02#8, .onWrite 0x01FD#16 0x0A#8,
          .onRead 0xFFFE#16, .onRead 0xFFFF#16]) := by
  refine ⟨?_, ?_⟩ <;> decide
theorem test_rti :
    (after ({ poke 0x01FF#16 0x40#8 (poke 0x01FE#16 0x02#8 (poke 0x01FD#16 0x0A#8 (code [0x40#8]))) with sp := 0xFC#8 })).map (fun t => (t.pc, t.sp, t.p)) =
      some (0x020A#16, 0xFF#8, { Status.clear with c := true }) ∧
    (after ({ poke 0x01FF#16 0x08#8 (poke 0x01FE#16 0x02#8 (poke 0x01FD#16 0x0A#8 (code [0x40#8]))) with sp := 0xFC#8 })).map (fun t => (t.p.d, t.run)) =
      some (true, .running) := by
  refine ⟨?_, ?_⟩ <;> decide
theorem test_pushes :
    (after ({ code [0x48#8] with a := 0x5A#8, sp := 0x00#8 })).map (fun t => (t.byteAt 0x0100#16, t.sp)) =
      some (0x5A#8, 0xFF#8) ∧
    (after ({ code [0x08#8] with sp := 0xFF#8, p := { Status.clear with c := true } })).map (fun t => (t.byteAt 0x01FF#16, t.sp)) =
      some (0x40#8, 0xFE#8) ∧
    (after ({ code [0x08#8] with sp := 0xFF#8, p := { Status.clear with n := true } })).map (fun t => t.byteAt 0x01FF#16) = some (0x01#8) ∧
    (after ({ code [0x08#8] with sp := 0xFF#8, p := flags true })).map (fun t => t.byteAt 0x01FF#16) = some (0x7F#8) ∧
    (after ({ code [0x08#8] with sp := 0xFF#8, p := { Status.clear with b := true, d := true } })).map (fun t => t.byteAt 0x01FF#16) = some (0x0C#8) := by
  refine ⟨?_, ?_, ?_, ?_, ?_⟩ <;> decide
theorem test_pulls :
    (after ({ poke 0x0100#16 0x80#8 (code [0x68#8]) with sp := 0xFF#8 })).map (fun t => (t.a, t.sp, t.p.z, t.p.n, seen t)) =
      some (0x80#8, 0x00#8, false, true, [.onRead 0x0200#16, .onRead 0x0100#16]) ∧
    (after ({ poke 0x01FF#16 0xFF#8 (code [0x28#8]) with sp := 0xFE#8 })).map (fun t => t.p) = some (flags true) ∧
    (after ({ poke 0x01FF#16 0x80#8 (code [0x28#8]) with sp := 0xFE#8, p := flags true })).map (fun t => t.p) = some (flags false) := by
  refine ⟨?_, ?_, ?_⟩ <;> decide
theorem test_flags :
    (after ({ code [0x18#8] with p := flags true })).map (fun t => t.p) = some ({ flags true with c := false }) ∧
    (after (code [0x38#8])).map (fun t => t.p) = some ({ flags false with c := true }) ∧
    (after ({ code [0x58#8] with p := flags true })).map (fun t => t.p) = some ({ flags true with i := false }) ∧
    (after (code [0x78#8])).map (fun t => t.p) = some ({ flags false with i := true }) ∧
    (after ({ code [0xD8#8] with p := flags true })).map (fun t => t.p) = some ({ flags true with d := false }) ∧
    (after (code [0xF8#8])).map (fun t => (t.p, t.run)) =
      some ({ flags false with d := true }, .running) ∧
    (after ({ code [0xB8#8] with p := flags true })).map (fun t => t.p) = some ({ flags true with v := false }) := by
  refine ⟨?_, ?_, ?_, ?_, ?_, ?_, ?_⟩ <;> decide
theorem test_nop :
    after (code [0xEA#8]) = some { code [0xEA#8] with pc := 0x0201#16, trace := [{ observer := 0, access := .onRead 0x0200#16 }] } ∧
    (after { poke 0xFFFF#16 0xEA#8 base with pc := 0xFFFF#16 }).map (fun t => t.pc) = some 0x0000#16 := by
  refine ⟨?_, ?_⟩ <;> decide
theorem test_unassigned :
    (after (code [0x02#8])).map (fun t => (t.run, t.pc, seen t)) =
      some (.faulted .decodeError 0x0200#16 0x02#8, 0x0200#16, [.onRead 0x0200#16]) ∧
    (after (code [0xFF#8])).map (fun t => t.run) = some (.faulted .decodeError 0x0200#16 0xFF#8) := by
  refine ⟨?_, ?_⟩ <;> decide
theorem test_faulted_has_no_step :
    step { base with run := .faulted .decodeError 0x0200#16 0xFF#8 } = .fault (.engineFaulted .decodeError 0x0200#16 0xFF#8) := rfl
/-- Section 2.7, and R301: zero storage executes BRK at 0x0000 and comes back there. -/
theorem test_reset_then_brk :
    State.reset.pc = 0x0000#16 ∧
    (after State.reset).map (fun t => (t.pc, t.sp, t.p.b)) = some (0x0000#16, 0xFD#8, true) := by
  refine ⟨?_, ?_⟩ <;> decide
/-- S1. -/
theorem test_status_layout :
    Status.pack { flags false with c := true } = 0x40#8 ∧
    Status.pack { flags false with n := true } = 0x01#8 ∧
    Status.unpack 0x80#8 = flags false := by
  refine ⟨?_, ?_, ?_⟩ <;> decide
/-! ### Witnesses: concrete states and operands that meet the hypotheses of each obligation -/

/-- A storage that lists bytes at both ends of the address space, all flags set, SP at the wrap. -/
def busy : State :=
  { poke 0xFFFF#16 0x03#8 (poke 0x0000#16 0x12#8 (code [0x7D#8, 0xF0#8, 0x12#8])) with
    a := 0x80#8, x := 0xFF#8, y := 0x01#8, sp := 0x00#8, p := flags true }

theorem witness_canonical_storage : base.mem.wf = true ∧ busy.mem.wf = true ∧ busy.mem ≠ [] := by decide

theorem witness_DecodeOfEncodeIsTheInstruction :
    Instr.wf .abs16 (.bne (.abs16 0xFFFF#16)) = true ∧ Instr.wf .rel8 (.bne (.rel8 0x80#8)) = true ∧
    Instr.wf .rel8 (.jmpInd 0x02FF#16) = true := by decide

theorem witness_EncodeOfDecodeIsTheBytes :
    decode .rel8 [0xD0#8, 0x80#8, 0xEA#8] = .ok (.bne (.rel8 0x80#8), [0xEA#8]) ∧ decode .abs16 [0x00#8] = .ok (.brk, []) :=
  ⟨rfl, rfl⟩

theorem witness_UnassignedByteRaisesDecodeError :
    (code [0x02#8]).run = .running ∧ (code [0x02#8]).byteAt 0x0200#16 ∈ unassignedBytes ∧
    (code [0xFF#8]).run = .running ∧ (code [0xFF#8]).byteAt 0x0200#16 ∈ unassignedBytes := by decide

theorem witness_StepExecutesTheDecodedInstruction :
    busy.run = .running ∧ decode busy.params.branchOperand (busy.bytesFrom busy.pc 3) = .ok (.adcAbsX 0x12F0#16, []) :=
  ⟨rfl, rfl⟩

theorem witness_StepExecutesTheBytesAtPc :
    (busy.run = .running ∧ Instr.wf busy.params.branchOperand (.adcAbsX 0x12F0#16) = true ∧
      busy.bytesFrom busy.pc (Instr.adcAbsX 0x12F0#16).size = encode (.adcAbsX 0x12F0#16)) ∧
    (codeRel8 [0xD0#8, 0x80#8]).run = .running ∧
    Instr.wf (codeRel8 [0xD0#8, 0x80#8]).params.branchOperand (.bne (.rel8 0x80#8)) = true ∧
    (codeRel8 [0xD0#8, 0x80#8]).bytesFrom 0x0200#16 (Instr.bne (.rel8 0x80#8)).size = encode (.bne (.rel8 0x80#8)) := by
  decide

/-- A state left by a fault. -/
def halted : State := { code [0xFF#8] with run := .faulted .decodeError 0x0200#16 0xFF#8 }

theorem witness_RunningEngineAlwaysSteps :
    base.run = .running ∧ halted.run = .faulted .decodeError 0x0200#16 0xFF#8 := by decide

/-- One state for each of the three faulting cases of R260. -/
theorem witness_FaultEntryIsPrecise :
    (∃ t, step (code [0xFF#8]) = .next t ∧ t.run ≠ .running) ∧
    (∃ t, step { code [0x69#8, 0x01#8] with p := flags true } = .next t ∧ t.run ≠ .running) ∧
    ∃ t, step (code [0x6C#8, 0xFF#8, 0x02#8]) = .next t ∧ t.run ≠ .running :=
  ⟨⟨_, rfl, by decide⟩, ⟨_, rfl, by decide⟩, ⟨_, rfl, by decide⟩⟩

/-- Each clause at its edge: an unassigned byte with D = 1, ADC with D = 1 and with D = 0, JMP at pointer low bytes
0xFF and 0xFE. -/
theorem witness_StepFaultsInTheThreeCasesOnly :
    { code [0xFF#8] with p := flags true }.faultOf = some .decodeError ∧
    { code [0x69#8] with p := flags true }.faultOf = some .unsupportedFeature ∧ (code [0x69#8]).faultOf = none ∧
    { code [0x6C#8, 0xFF#8] with p := flags true }.faultOf = some .unsupportedFeature ∧
    { code [0x6C#8, 0xFE#8] with p := flags true }.faultOf = none ∧
    (∃ t, step { code [0xFF#8] with p := flags true } = .next t) ∧ (∃ t, step { code [0x69#8] with p := flags true } = .next t) ∧
    (∃ t, step (code [0x69#8]) = .next t) ∧ (∃ t, step (code [0x6C#8, 0xFF#8]) = .next t) ∧
    ∃ t, step (code [0x6C#8, 0xFE#8]) = .next t := by
  refine ⟨?_, ?_, ?_, ?_, ?_, ⟨_, rfl⟩, ⟨_, rfl⟩, ⟨_, rfl⟩, ⟨_, rfl⟩, ⟨_, rfl⟩⟩ <;> decide

theorem witness_InvariantHoldsAtReset : busy.mem.wf = true := by decide

theorem witness_StepKeepsTheInvariant :
    busy.Inv = true ∧ (∃ t, step busy = .next t) ∧ halted.Inv = true ∧
    { code [0x00#8] with sp := 0x00#8 }.Inv = true ∧ ∃ t, step { code [0x00#8] with sp := 0x00#8 } = .next t := by
  refine ⟨?_, ⟨_, rfl⟩, ?_, ?_, ⟨_, rfl⟩⟩ <;> decide

/-- `busy` observed by nobody, and with another history. -/
def busyUnseen : State :=
  { busy with trace := [{ observer := 9, access := .onRead 0x0000#16 }], params := { busy.params with observers := [] } }

theorem witness_ObserversNeverInfluenceTheMachine :
    busy ≠ busyUnseen ∧ busy.unobserved = busyUnseen.unobserved ∧ (∃ t, step busy = .next t) ∧
    ∃ r, step { busy with run := .faulted .decodeError 0x0200#16 0xFF#8 } = .fault r := by
  refine ⟨?_, ?_, ⟨_, rfl⟩, ⟨_, rfl⟩⟩ <;> decide

theorem witness_StepOnlyAppendsNotifications : ∃ t, step busy = .next t := ⟨_, rfl⟩

theorem witness_RunEndsAtTheFirstFault :
    ((poke 0xFFFD#16 0x02#8 (code [0xFF#8])).hostRun ResetDraw.zero 1).run ≠ .running := by decide

theorem witness_ZeroStorageLoopsOnBrk : State.reset.mem.wf = true ∧ State.reset.zeroLoop := by
  refine ⟨rfl, rfl, rfl, fun a _ => rfl⟩

/-- Both pointers at the wrap of page 0. -/
theorem witness_ResolverFollowsTheModes :
    (0x00FE#8).toNat = ((0xFF#8 : Byte).toNat + busy.x.toNat) % 256 ∧ (0xFF#8).toNat = ((0xFE#8 : Byte).toNat + 1) % 256 ∧
    (0xFF#8).toNat = ((0x00#8 : Byte).toNat + busy.x.toNat) % 256 ∧ (0x00#8).toNat = ((0xFF#8 : Byte).toNat + 1) % 256 ∧
    (MemOperand.absoluteX 0xFFFF#16).mode ≠ .indirectX ∧ (MemOperand.absoluteX 0xFFFF#16).mode ≠ .indirectY := by
  decide

theorem witness_LoadsWriteTheirRegister :
    (Instr.ldaIndY 0xFF#8).mnemonic = .lda ∧ (Instr.ldxZpY 0xF0#8).mnemonic = .ldx ∧ (Instr.ldyImm 0x00#8).mnemonic = .ldy := by
  decide

theorem witness_StoresWriteOneByte : busy.mem.wf = true ∧
    (Instr.staAbs 0xFFFF#16).mnemonic = .sta ∧ (Instr.stxZp 0x10#8).mnemonic = .stx ∧ (Instr.styZpX 0x10#8).mnemonic = .sty := by
  decide

theorem witness_AdcAddsWithCarry :
    (Instr.adcImm 0xFF#8).mnemonic = .adc ∧ base.p.d = false ∧ busy.p.d = true := by decide

theorem witness_SbcAddsTheComplement :
    (Instr.sbcImm 0x00#8).mnemonic = .sbc ∧ base.p.d = false ∧ busy.p.d = true := by decide

theorem witness_AdcOverflowIsSignedRange :
    (Instr.adcImm 0x7F#8).mnemonic = .adc ∧ base.p.d = false ∧ ∃ t, exec (.adcImm 0x7F#8) base = .next t := ⟨rfl, rfl, _, rfl⟩

theorem witness_SbcIsSubtractionWithBorrow :
    (Instr.sbcImm 0x80#8).mnemonic = .sbc ∧ base.p.d = false ∧ ∃ t, exec (.sbcImm 0x80#8) base = .next t := ⟨rfl, rfl, _, rfl⟩

theorem witness_DecimalArithmeticFaults :
    busy.run = .running ∧ busy.p.d = true ∧ busy.byteAt busy.pc ∈ decimalOpcodes := by decide

theorem witness_ComparesSetCarryZeroNegative :
    (Instr.cmpImm 0x80#8).mnemonic = .cmp ∧ (Instr.cpxZp 0x00#8).mnemonic = .cpx ∧ (Instr.cpyAbs 0xFFFF#16).mnemonic = .cpy := by
  decide

theorem witness_IncAndDecChangeOneByte : busy.mem.wf = true ∧
    (Instr.incAbsX 0xFFFF#16).mnemonic = .inc ∧ (Instr.decZpX 0x01#8).mnemonic = .dec := by decide

theorem witness_ShiftsMoveBitsThroughCarry : busy.mem.wf = true ∧
    Instr.aslAcc.mnemonic = .asl ∧ (Instr.lsrZp 0x00#8).mnemonic = .lsr ∧ (Instr.rolAbsX 0xFF01#16).mnemonic = .rol ∧
    Instr.rorAcc.mnemonic = .ror := by decide

theorem witness_LogicCombinesWithA :
    (Instr.andImm 0x0F#8).mnemonic = .and ∧ (Instr.oraIndX 0xFE#8).mnemonic = .ora ∧ (Instr.eorAbsY 0xFFFF#16).mnemonic = .eor := by
  decide

theorem witness_BitTestsTheMemoryByte : (Instr.bitAbs 0xFFFF#16).mnemonic = .bit := by decide

theorem witness_BranchesFollowTheirFlag :
    ((Instr.bcc (.abs16 0x0400#16)).mnemonic = .bcc ∧ true = !base.p.c) ∧ ((Instr.bcs (.rel8 0x80#8)).mnemonic = .bcs ∧ true = busy.p.c) ∧
    ((Instr.beq (.rel8 0x7F#8)).mnemonic = .beq ∧ false = base.p.z) ∧ ((Instr.bmi (.abs16 0#16)).mnemonic = .bmi ∧ true = busy.p.n) ∧
    ((Instr.bne (.rel8 0xF8#8)).mnemonic = .bne ∧ false = !busy.p.z) ∧ ((Instr.bpl (.abs16 0#16)).mnemonic = .bpl ∧ true = !base.p.n) ∧
    ((Instr.bvc (.rel8 0x00#8)).mnemonic = .bvc ∧ false = !busy.p.v) ∧ ((Instr.bvs (.abs16 0#16)).mnemonic = .bvs ∧ false = base.p.v) := by
  decide

/-- The clauses meet at the pointers whose low bytes are 0xFE, 0xFF and 0x00. -/
theorem witness_JumpsAbsoluteAndIndirect :
    (0x02FE#16).toNat % 256 ≠ 255 ∧ (0x02FF#16).toNat % 256 = 255 ∧ (0x0300#16).toNat % 256 ≠ 255 := by decide

/-- The premise of the JSR, BRK, push and round-trip statements is canonical storage alone; SP is at the wrap here. -/
theorem witness_JsrPushesTheReturnAddress : busy.mem.wf = true ∧ busy.sp = 0x00#8 := by decide
theorem witness_JsrThenRtsResumesAfterTheCall : busy.mem.wf = true ∧ busy.sp - 1 = 0xFF#8 := by decide
theorem witness_BrkEntersThroughTheVector : busy.mem.wf = true ∧ busy.byteAt 0xFFFF#16 = 0x03#8 := by decide
theorem witness_BrkThenRtiRestoresTheMachine : busy.mem.wf = true ∧ busy.p = flags true := by decide
theorem witness_RtiRestoresAddressAndFlags : 0x00#8 = busy.byteAt (stackAddr (busy.sp + 3)) := by decide
theorem witness_PushesWriteTheStackPage : busy.mem.wf = true ∧
    (Instr.pha.mnemonic = .pha ∧ 0x80#8 = busy.a) ∧ (Instr.php.mnemonic = .php ∧ 0x7F#8 = busy.p.pack) := by decide
theorem witness_PullsReadTheStackPage :
    0x80#8 = (poke 0x0100#16 0x80#8 { base with sp := 0xFF#8 }).byteAt (stackAddr (0xFF#8 + 1)) := by decide
theorem witness_PushThenPullRestores : busy.mem.wf = true ∧ busy.a = 0x80#8 := by decide

theorem witness_PushesStayInTheStackPage : busy.mem.wf = true ∧ Instr.brk.mnemonic = .brk ∧ (∃ t, exec .brk busy = .next t) ∧
    region 0x00FF#16 ≠ .stackPage ∧ region 0x0200#16 ≠ .stackPage := by
  refine ⟨?_, rfl, ⟨_, rfl⟩, ?_, ?_⟩ <;> decide

/-- Runs in which each flag changes. -/
theorem witness_FlagsHaveNamedWriters :
    (∃ t, exec .sec base = .next t ∧ t.p.c ≠ base.p.c) ∧ (∃ t, exec (.ldaImm 0x00#8) base = .next t ∧ t.p.z ≠ base.p.z) ∧
    (∃ t, exec (.ldaImm 0x80#8) base = .next t ∧ t.p.n ≠ base.p.n) ∧ (∃ t, exec .sei base = .next t ∧ t.p.i ≠ base.p.i) ∧
    (∃ t, exec .sed base = .next t ∧ t.p.d ≠ base.p.d) ∧ (∃ t, exec .brk base = .next t ∧ t.p.b ≠ base.p.b) ∧
    ∃ t, exec .clv busy = .next t ∧ t.p.v ≠ busy.p.v := by
  refine ⟨⟨_, rfl, ?_⟩, ⟨_, rfl, ?_⟩, ⟨_, rfl, ?_⟩, ⟨_, rfl, ?_⟩, ⟨_, rfl, ?_⟩, ⟨_, rfl, ?_⟩, ⟨_, rfl, ?_⟩⟩ <;> decide

/-- Runs in which each register changes. -/
theorem witness_RegistersHaveNamedWriters :
    (∃ t, exec .aslAcc busy = .next t ∧ t.a ≠ busy.a) ∧ (∃ t, exec .inx busy = .next t ∧ t.x ≠ busy.x) ∧
    (∃ t, exec .tay busy = .next t ∧ t.y ≠ busy.y) ∧ ∃ t, exec .txs busy = .next t ∧ t.sp ≠ busy.sp := by
  refine ⟨⟨_, rfl, ?_⟩, ⟨_, rfl, ?_⟩, ⟨_, rfl, ?_⟩, ⟨_, rfl, ?_⟩⟩ <;> decide

theorem witness_StorageHasNamedWriters : busy.mem.wf = true ∧
    (∃ t, exec (.staAbsX 0xFFFF#16) busy = .next t ∧ t.mem ≠ busy.mem) ∧
    (∃ t, exec (.aslZp 0x00#8) busy = .next t ∧ t.mem ≠ busy.mem) ∧ (∃ t, exec .aslAcc busy = .next t) ∧
    (Instr.staAbsX 0xFFFF#16).operand = .memory (.absoluteX 0xFFFF#16) ∧ (Instr.staAbsX 0xFFFF#16).mnemonic ≠ .jsr ∧
    0xFFFF#16 ≠ (MemOperand.absoluteX 0xFFFF#16).ea busy := by
  refine ⟨?_, ⟨_, rfl, ?_⟩, ⟨_, rfl, ?_⟩, ⟨_, rfl⟩, rfl, ?_, ?_⟩ <;> decide

theorem witness_PcAdvancesByTheWidth : busy.run = .running ∧ Instr.nop.mnemonic = .nop ∧
    ∃ t, exec .nop { busy with pc := 0xFFFF#16 } = .next t ∧ t.run = .running := ⟨rfl, rfl, _, rfl, rfl⟩

/-- `busy` (A = 0x80, unassigned; X = 0xFF and Y = 0x01, X unassigned and Y an opcode) with PC near the end of the address
space, where the next instruction stands at 0x0000. -/
def edge : State := { busy with pc := 0xFFFE#16 }

/-- Both clauses, the three mnemonics, and forms of one and of two operand bytes. -/
theorem witness_StoreIsSeenByTheNextFetch :
    busy.mem.wf = true ∧ busy.run = .running ∧ edge.mem.wf = true ∧ edge.run = .running ∧
    ((Instr.staAbs 0x0203#16).mnemonic = .sta ∧ busy.a ∈ unassignedBytes) ∧
    (MemOperand.absolute 0x0203#16).ea busy = busy.pc + BitVec.ofNat 16 (Instr.staAbs 0x0203#16).size ∧
    ((Instr.staAbsX 0x0104#16).mnemonic = .sta ∧
      (MemOperand.absoluteX 0x0104#16).ea busy = busy.pc + BitVec.ofNat 16 (Instr.staAbsX 0x0104#16).size) ∧
    ((Instr.stxZp 0x00#8).mnemonic = .stx ∧ edge.x ∈ unassignedBytes) ∧
    (MemOperand.zeroPage 0x00#8).ea edge = edge.pc + BitVec.ofNat 16 (Instr.stxZp 0x00#8).size ∧
    ((Instr.styZpX 0x01#8).mnemonic = .sty ∧ edge.y ∉ unassignedBytes) ∧
    (MemOperand.zeroPageX 0x01#8).ea edge = edge.pc + BitVec.ofNat 16 (Instr.styZpX 0x01#8).size := by decide

/-- Observers 7, 8 and 7 again, whose ranges meet at 0x0200: the last address of one interval, the first of another and
an interval of that address alone; observer 9 sees the addresses around it. -/
def watched : Params :=
  { branchOperand := .abs16
    observers :=
      [{ observer := 7, range := [{ first := 0x0100#16, last := 0x0200#16 }] },
       { observer := 9, range := [{ first := 0x0000#16, last := 0x01FF#16 }, { first := 0x0201#16, last := 0xFFFF#16 }] },
       { observer := 8, range := [{ first := 0x0200#16, last := 0x0201#16 }, { first := 0x0200#16, last := 0x0300#16 }] },
       { observer := 7, range := [{ first := 0x0200#16, last := 0x0200#16 }] }] }

/-- R53: each registration that contains the address is notified, in registration order, once, at both ends of an
interval, and the others are not; observer 7, registered twice, is notified twice (log entry 5, the model's choice). -/
theorem test_overlapping_observers :
    (after { code [0xEA#8] with params := watched }).map (fun t => t.trace) =
      some [{ observer := 7, access := .onRead 0x0200#16 }, { observer := 8, access := .onRead 0x0200#16 },
        { observer := 7, access := .onRead 0x0200#16 }] ∧
    watched.notificationsOf [.onRead 0x0201#16, .onWrite 0x0100#16 0x2A#8, .onRead 0x00FF#16] =
      [{ observer := 9, access := .onRead 0x0201#16 }, { observer := 8, access := .onRead 0x0201#16 },
       { observer := 7, access := .onWrite 0x0100#16 0x2A#8 }, { observer := 9, access := .onWrite 0x0100#16 0x2A#8 },
       { observer := 9, access := .onRead 0x00FF#16 }] := by
  refine ⟨?_, ?_⟩ <;> decide

/-- Both kinds of access, with an address in the range at the interval's first and last address, and one outside it. -/
theorem witness_EachRegistrationIsNotifiedInOrder :
    (Access.onRead 0x0200#16 = .onRead 0x0200#16 ∨ ∃ v, Access.onRead 0x0200#16 = .onWrite 0x0200#16 v) ∧
    (Access.onWrite 0x0100#16 0x2A#8 = .onRead 0x0100#16 ∨ ∃ v, Access.onWrite 0x0100#16 0x2A#8 = .onWrite 0x0100#16 v) ∧
    (Registration.covers { observer := 7, range := [{ first := 0x0100#16, last := 0x0200#16 }] } 0x0100#16 = true) ∧
    (Registration.covers { observer := 7, range := [{ first := 0x0100#16, last := 0x0200#16 }] } 0x0200#16 = true) ∧
    (Registration.covers { observer := 7, range := [{ first := 0x0100#16, last := 0x0200#16 }] } 0x0201#16 = false) :=
  ⟨.inl rfl, .inr ⟨_, rfl⟩, rfl, rfl, rfl⟩

end Sys2Proof.Tests
end

/-! The packed status byte (R29, R30): its bits, and packing against unpacking. -/

namespace Sys2Proof.Machine

/-- R29's weighted sum is the byte whose bits, least significant first, are N, V, B, D, I, Z, C and 0. -/
theorem Status.pack_eq_ofBoolListLE (p : Status) :
    p.pack = BitVec.ofBoolListLE [p.n, p.v, p.b, p.d, p.i, p.z, p.c, false] := by
  apply BitVec.eq_of_toNat_eq
  have hc := p.c.toNat_lt
  have hz := p.z.toNat_lt
  have hi := p.i.toNat_lt
  have hd := p.d.toNat_lt
  have hb := p.b.toNat_lt
  have hv := p.v.toNat_lt
  have hn := p.n.toNat_lt
  simp only [Status.pack, BitVec.ofBoolListLE, BitVec.toNat_concat, BitVec.toNat_ofNat, BitVec.toNat_of_zero_length rfl, Bool.toNat_false]
  omega

theorem Status.bit_pack (p : Status) (k : Nat) :
    bit p.pack k = [p.n, p.v, p.b, p.d, p.i, p.z, p.c, false].getD k false := by
  rw [Status.pack_eq_ofBoolListLE]
  exact BitVec.getLsbD_ofBoolListLE

@[simp] theorem Status.unpack_pack (p : Status) : Status.unpack p.pack = p := by
  simp [Status.unpack, Status.bit_pack]

/-- Packing an unpacked byte keeps its low seven bits and clears bit 7 (D7). -/
theorem Status.pack_unpack (f : Byte) : (Status.unpack f).pack = (f.setWidth 7).setWidth 8 := by
  apply BitVec.eq_of_getLsbD_eq
  intro k hk
  rw [← bit, Status.bit_pack]
  interval_cases k <;> simp [Status.unpack, bit]

theorem Status.toNat_pack_unpack (f : Byte) : (Status.unpack f).pack.toNat = f.toNat % 128 := by
  rw [Status.pack_unpack, BitVec.toNat_setWidth, BitVec.toNat_setWidth]
  omega

/-- Settles O48, from the bits of the packed byte. -/
theorem packedStatusLayout : Obligations.PackedStatusLayout := by
  unfold Obligations.PackedStatusLayout
  refine ⟨fun p => ?_, fun f => ⟨rfl, Status.toNat_pack_unpack f⟩⟩
  simp [Status.bit_pack]

end Sys2Proof.Machine

/-! Loads and stores (R140 to R145): the mnemonic fixes the form of the execution, since every other form names other
mnemonics. -/

namespace Sys2Proof.Machine

section

variable {i : Instr} {s t : State}

theorem ExecForm.eq_loadA_of_lda (h : ExecForm i s t) (hi : i.mnemonic = .lda) :
    ∃ src : Source, i.operand = src.operand ∧ t = loadA src s := by
  cases h
  case lda src _ hop => exact ⟨src, hop, rfl⟩
  all_goals simp_all [BranchTest, FlagChange, ShiftBits]

theorem ExecForm.eq_loadX_of_ldx (h : ExecForm i s t) (hi : i.mnemonic = .ldx) :
    ∃ src : Source, i.operand = src.operand ∧ t = loadX src s := by
  cases h
  case ldx src _ hop => exact ⟨src, hop, rfl⟩
  all_goals simp_all [BranchTest, FlagChange, ShiftBits]

theorem ExecForm.eq_loadY_of_ldy (h : ExecForm i s t) (hi : i.mnemonic = .ldy) :
    ∃ src : Source, i.operand = src.operand ∧ t = loadY src s := by
  cases h
  case ldy src _ hop => exact ⟨src, hop, rfl⟩
  all_goals simp_all [BranchTest, FlagChange, ShiftBits]

/-- A store's form, for the register byte that goes with its mnemonic. -/
theorem ExecForm.eq_storeByte (h : ExecForm i s t) {v : Byte}
    (hv : (i.mnemonic = .sta ∧ v = s.a) ∨ (i.mnemonic = .stx ∧ v = s.x) ∨ (i.mnemonic = .sty ∧ v = s.y)) :
    ∃ m : MemOperand, i.operand = .memory m ∧ t = storeByte v m s := by
  cases h
  case store v' m hm hop =>
    have : v' = v := by rcases hv with ⟨hi, rfl⟩ | ⟨hi, rfl⟩ | ⟨hi, rfl⟩ <;> simpa [hi] using hm
    exact ⟨m, hop, this ▸ rfl⟩
  all_goals rcases hv with ⟨hi, -⟩ | ⟨hi, -⟩ | ⟨hi, -⟩ <;> simp_all [BranchTest, FlagChange, ShiftBits]

end

/-- Settles O21, from the form each load's execution has and the closed forms of the three loads. -/
theorem loadsWriteTheirRegister : Obligations.LoadsWriteTheirRegister := by
  unfold Obligations.LoadsWriteTheirRegister
  refine ⟨hasEncodings_of_rows (by decide), hasEncodings_of_rows (by decide),
    hasEncodings_of_rows (by decide), fun i s => ?_⟩
  obtain ⟨t, ht, hform⟩ := exec_form i s
  refine ⟨fun hi => ?_, fun hi => ?_, fun hi => ?_⟩
  · obtain ⟨src, hop, rfl⟩ := hform.eq_loadA_of_lda hi
    exact ⟨src, hop, ht.trans (congrArg _ (loadA_eq hop s))⟩
  · obtain ⟨src, hop, rfl⟩ := hform.eq_loadX_of_ldx hi
    exact ⟨src, hop, ht.trans (congrArg _ (loadX_eq hop s))⟩
  · obtain ⟨src, hop, rfl⟩ := hform.eq_loadY_of_ldy hi
    exact ⟨src, hop, ht.trans (congrArg _ (loadY_eq hop s))⟩

/-- Settles O22, from the closed form of a store; canonical storage makes its one write the only byte that changes. -/
theorem storesWriteOneByte : Obligations.StoresWriteOneByte := by
  unfold Obligations.StoresWriteOneByte
  refine ⟨hasEncodings_of_rows (by decide), hasEncodings_of_rows (by decide),
    hasEncodings_of_rows (by decide), fun i s v hwf hv => ?_⟩
  obtain ⟨t, ht, hform⟩ := exec_form i s
  obtain ⟨m, hop, rfl⟩ := hform.eq_storeByte hv
  refine ⟨m, _, hop, ht, ?_⟩
  rw [storeByte_eq hop]
  exact ⟨rfl, fun b => State.byteAt_write hwf (m.ea s) b v⟩

end Sys2Proof.Machine

/-! Arithmetic (R160 to R168): which shared operation executes the mnemonics of the family, and that the bytes they
compute are the integer results of the rules, modulo 256. -/

namespace Sys2Proof

/-- The instruction the decoder answers has the opcode byte it was read from. -/
theorem opcode_of_decode {form : BranchOperand} {opc : Byte} {bytes rest : List Byte} {i : Instr}
    (h : decode form (opc :: bytes) = .ok (i, rest)) : i.opcode = opc := by
  cases he : opcodeEntry opc with
  | none => simp [decode, he] at h
  | some shape =>
    have hread : shape.read form opc bytes = .ok (i, rest) := by simpa [decode, he] using h
    obtain ⟨r, hr, rfl, rfl⟩ := findRow_mem he
    have hs := row_sound hr
    unfold Row.Sound at hs
    unfold Shape.read at hread
    split at hread <;> rename_i hshape <;> rw [hshape] at hs
    · cases hread; exact hs.1
    · split at hread <;> cases hread; exact (hs _).1
    · split at hread <;> cases hread; exact (hs _).1
    · split at hread <;> cases hread <;> exact (hs _).1

/-- The 16 opcode bytes of R161 are exactly those of ADC and SBC. -/
theorem opcode_mem_decimalOpcodes_iff (i : Instr) : i.opcode ∈ decimalOpcodes ↔ i.mnemonic = .adc ∨ i.mnemonic = .sbc := by
  have rows : opcodeTriples.all (fun r => decide (r.2.1 ∈ decimalOpcodes ↔ r.1 = .adc ∨ r.1 = .sbc)) = true := by decide
  exact of_decide_eq_true (List.all_eq_true.mp rows _ (triple_mem i))

theorem not_mem_unassignedBytes_of_decimal {opc : Byte} (h : opc ∈ decimalOpcodes) : opc ∉ unassignedBytes := by
  have disjoint : ∀ b ∈ decimalOpcodes, b ∉ unassignedBytes := by decide
  exact disjoint opc h

end Sys2Proof

namespace Sys2Proof.Machine

/-! ### The bytes computed, as integers -/

theorem toNat_adcResult (a m : Byte) (c : Bool) : (adcResult a m c).toNat = (a.toNat + m.toNat + c.toNat) % 256 :=
  BitVec.toNat_ofNat _ 8

/-- The difference a compare takes N from (R164). -/
theorem toNat_sub_eq_emod (r m : Byte) : ((r - m).toNat : Int) = ((r.toNat : Int) - (m.toNat : Int)) % 256 := by
  bv_omega

/-! ### The operation that executes a mnemonic -/

section

variable {i : Instr}

/-- ADC and SBC are one operation, for the change of M that goes with the mnemonic (R162, R163). -/
theorem exec_arithmetic {change : Byte → Byte} (s : State)
    (hi : (i.mnemonic = .adc ∧ change = id) ∨ (i.mnemonic = .sbc ∧ change = fun m => ~~~m)) :
    ∃ src : Source, i.operand = src.operand ∧ exec i s = .next (addWithCarry i.opcode change src s) := by
  obtain ⟨t, ht, hform⟩ := exec_form i s
  cases hform
  case arithmetic change' src hm hop =>
    have : change' = change := by rcases hi with ⟨hi, rfl⟩ | ⟨hi, rfl⟩ <;> simpa [hi] using hm
    exact ⟨src, hop, this ▸ ht⟩
  all_goals rcases hi with ⟨hi, -⟩ | ⟨hi, -⟩ <;> simp_all [BranchTest, FlagChange, ShiftBits]

/-- CMP, CPX and CPY are one operation, for the register that goes with the mnemonic (R164 to R166). -/
theorem exec_compare {s : State} {r : Byte}
    (hi : (i.mnemonic = .cmp ∧ r = s.a) ∨ (i.mnemonic = .cpx ∧ r = s.x) ∨ (i.mnemonic = .cpy ∧ r = s.y)) :
    ∃ src : Source, i.operand = src.operand ∧ exec i s = .next (compareWith r src s) := by
  obtain ⟨t, ht, hform⟩ := exec_form i s
  cases hform
  case compare r' src hm hop =>
    have : r' = r := by rcases hi with ⟨hi, rfl⟩ | ⟨hi, rfl⟩ | ⟨hi, rfl⟩ <;> simpa [hi] using hm
    exact ⟨src, hop, this ▸ ht⟩
  all_goals rcases hi with ⟨hi, -⟩ | ⟨hi, -⟩ | ⟨hi, -⟩ <;> simp_all [BranchTest, FlagChange, ShiftBits]

/-- INC and DEC are one operation, for a change of the byte that counts as the mnemonic says (R167, R168). -/
theorem exec_incDec (s : State) (hi : i.mnemonic = .inc ∨ i.mnemonic = .dec) :
    ∃ (m : MemOperand) (f : Byte → Byte), i.operand = .memory m ∧ exec i s = .next (modifyByte f m s) ∧
      ∀ v, (f v).toNat = (v.toNat + if i.mnemonic = .inc then 1 else 255) % 256 := by
  obtain ⟨t, ht, hform⟩ := exec_form i s
  cases hform
  case incDec f m hm hop =>
    refine ⟨m, f, hop, ht, fun v => ?_⟩
    rcases hm with ⟨hi, rfl⟩ | ⟨hi, rfl⟩
    · simp [hi]
    · simp [hi, Nat.add_comm]
  all_goals rcases hi with hi | hi <;> simp_all [BranchTest, FlagChange, ShiftBits]

/-- ADC or SBC with D = 1 raises UnsupportedFeature right after the opcode fetch (R161, D11). -/
theorem exec_decimal {s : State} (hi : i.mnemonic = .adc ∨ i.mnemonic = .sbc) (hd : s.p.d = true) :
    exec i s = .next { s with
      run := .faulted .unsupportedFeature s.pc i.opcode, trace := s.observed [.onRead s.pc] } := by
  have ⟨_, src, _, he⟩ : ∃ change, ∃ src : Source, i.operand = src.operand ∧
      exec i s = .next (addWithCarry i.opcode change src s) :=
    hi.elim (fun h => ⟨_, exec_arithmetic s (.inl ⟨h, rfl⟩)⟩) (fun h => ⟨_, exec_arithmetic s (.inr ⟨h, rfl⟩)⟩)
  rw [he, addWithCarry_decimal _ _ _ hd]

end

/-- Where the byte at PC is assigned, a Running engine executes an instruction with that opcode byte (R111). -/
theorem step_running_assigned {s : State} (hr : s.run = .running) (ha : s.byteAt s.pc ∉ unassignedBytes) :
    ∃ i : Instr, i.opcode = s.byteAt s.pc ∧ step s = exec i s := by
  obtain ⟨hu, -⟩ | ⟨-, i, rest, hdec, hstep⟩ := step_running_cases hr
  · exact absurd hu ha
  · exact ⟨i, opcode_of_decode hdec, hstep⟩

/-! ### The obligations -/

/-- Settles O25, from the closed form of the addition. -/
theorem adcAddsWithCarry : Obligations.AdcAddsWithCarry := by
  unfold Obligations.AdcAddsWithCarry
  refine ⟨hasEncodings_of_rows (by decide), fun i s hi => ⟨fun hd => ?_, exec_decimal (.inl hi)⟩⟩
  obtain ⟨src, hop, he⟩ := exec_arithmetic s (.inl ⟨hi, rfl⟩)
  rw [addWithCarry_eq hop _ _ hd] at he
  exact ⟨src, adcResult s.a (src.value s) s.p.c, _, hop, rfl, toNat_adcResult _ _ _, he⟩

/-- Settles O26, from the closed form of the addition, at the complement of M. -/
theorem sbcAddsTheComplement : Obligations.SbcAddsTheComplement := by
  unfold Obligations.SbcAddsTheComplement
  refine ⟨hasEncodings_of_rows (by decide), fun i s hi => ⟨fun hd => ?_, exec_decimal (.inr hi)⟩⟩
  obtain ⟨src, hop, he⟩ := exec_arithmetic s (.inr ⟨hi, rfl⟩)
  rw [addWithCarry_eq hop _ _ hd] at he
  exact ⟨src, ~~~src.value s, adcResult s.a (~~~src.value s) s.p.c, _, hop, BitVec.toNat_not, rfl,
    toNat_adcResult _ _ _, he⟩

/-- Settles O29: a decimal opcode byte is assigned, so the step executes an ADC or an SBC. SED, PLP and RTI compute their
next state without looking at D. -/
theorem decimalArithmeticFaults : Obligations.DecimalArithmeticFaults := by
  unfold Obligations.DecimalArithmeticFaults
  refine ⟨rfl, by decide, opcode_mem_decimalOpcodes_iff, fun s hr hd hmem => ?_,
    fun s => ⟨_, _, _, rfl, rfl, rfl, rfl, rfl, rfl, rfl⟩⟩
  obtain ⟨i, hopc, hstep⟩ := step_running_assigned hr (not_mem_unassignedBytes_of_decimal hmem)
  have hi := (opcode_mem_decimalOpcodes_iff i).mp (hopc ▸ hmem)
  rw [hstep, exec_decimal hi hd, hopc]

/-- Settles O30, from the closed form of a compare. -/
theorem comparesSetCarryZeroNegative : Obligations.ComparesSetCarryZeroNegative := by
  unfold Obligations.ComparesSetCarryZeroNegative
  refine ⟨hasEncodings_of_rows (by decide), hasEncodings_of_rows (by decide),
    hasEncodings_of_rows (by decide), fun i s r hi => ?_⟩
  obtain ⟨src, hop, he⟩ := exec_compare hi
  exact ⟨src, r - src.value s, hop, toNat_sub_eq_emod _ _, he.trans (congrArg _ (compareWith_eq hop r s))⟩

/-- Settles O31, from the closed form of the change of a byte; canonical storage makes its one write the only byte that
changes. -/
theorem incAndDecChangeOneByte : Obligations.IncAndDecChangeOneByte := by
  unfold Obligations.IncAndDecChangeOneByte
  refine ⟨hasEncodings_of_rows (by decide), hasEncodings_of_rows (by decide), fun i s hwf hi => ?_⟩
  obtain ⟨m, f, hop, he, hf⟩ := exec_incDec s hi
  refine ⟨m, _, f (s.byteAt (m.ea s)), hop, he, hf _, ?_⟩
  rw [modifyByte_eq hop]
  exact ⟨rfl, fun b => State.byteAt_write hwf (m.ea s) b _⟩

end Sys2Proof.Machine

/-! Shifts, logic and BIT (R180 to R187): the bits the shifts compute are the integer results of the rules, and which
shared operation executes the mnemonics of the family. -/

namespace Sys2Proof.Machine

/-! ### The bits computed, as integers -/

theorem toNat_aslBits (v : Byte) (c : Bool) : (aslBits v c).1.toNat = v.toNat * 2 % 256 := by
  rw [aslBits, BitVec.toNat_shiftLeft, Nat.shiftLeft_eq]

theorem toNat_lsrBits (v : Byte) (c : Bool) : (lsrBits v c).1.toNat = v.toNat / 2 := by
  rw [lsrBits, BitVec.toNat_ushiftRight, Nat.shiftRight_eq_div_pow]

/-- The carry enters at bit 0, which the left shift has cleared (R182). -/
theorem toNat_rolBits (v : Byte) (c : Bool) : (rolBits v c).1.toNat = v.toNat * 2 % 256 + c.toNat := by
  have hc := c.toNat_lt
  have shifted : (v <<< 1).toNat = 2 ^ 1 * (v.toNat % 128) := (toNat_aslBits v c).trans (by omega)
  have carry : (BitVec.ofNat 8 c.toNat).toNat = c.toNat := Nat.mod_eq_of_lt (by omega)
  rw [rolBits, BitVec.toNat_or, shifted, carry, ← Nat.two_pow_add_eq_or_of_lt hc]
  omega

/-- The carry enters at bit 7, which the right shift has cleared (R183). -/
theorem toNat_rorBits (v : Byte) (c : Bool) : (rorBits v c).1.toNat = v.toNat / 2 + 128 * c.toNat := by
  have hc := c.toNat_lt
  have shifted : (v >>> 1).toNat = v.toNat / 2 := toNat_lsrBits v c
  have low : v.toNat / 2 < 2 ^ 7 := by have := v.isLt; omega
  have carry : (BitVec.ofNat 8 c.toNat <<< 7).toNat = 2 ^ 7 * c.toNat := by
    rw [BitVec.toNat_shiftLeft, BitVec.toNat_ofNat, Nat.shiftLeft_eq]
    omega
  rw [rorBits, BitVec.toNat_or, shifted, carry, Nat.or_comm, ← Nat.two_pow_add_eq_or_of_lt low, Nat.add_comm]

/-- The bits a shift computes are the result and the bit out of its rule. -/
theorem ShiftBits.shiftRule {mn : Mnemonic} {f : Byte → Bool → Byte × Bool} (h : ShiftBits mn f) (v : Byte) (c : Bool) :
    ShiftRule mn v c (f v c).1 (f v c).2 := by
  rcases h with ⟨hm, rfl⟩ | ⟨hm, rfl⟩ | ⟨hm, rfl⟩ | ⟨hm, rfl⟩
  · exact .inl ⟨hm, rfl, toNat_aslBits v c⟩
  · exact .inr (.inl ⟨hm, rfl, toNat_lsrBits v c⟩)
  · exact .inr (.inr (.inl ⟨hm, rfl, toNat_rolBits v c⟩))
  · exact .inr (.inr (.inr ⟨hm, rfl, toNat_rorBits v c⟩))

/-! ### The operation that executes a mnemonic -/

section

variable {i : Instr} (s : State)

/-- The four shifts are one operation, for the bits that go with the mnemonic (R180 to R183). -/
theorem exec_shift (hi : i.mnemonic = .asl ∨ i.mnemonic = .lsr ∨ i.mnemonic = .rol ∨ i.mnemonic = .ror) :
    ∃ (f : Byte → Bool → Byte × Bool) (t : Target), ShiftBits i.mnemonic f ∧ i.operand = t.operand ∧
      exec i s = .next (shiftTarget f t s) := by
  obtain ⟨t, ht, hform⟩ := exec_form i s
  cases hform
  case shift f t hm hop => exact ⟨f, t, hm, hop, ht⟩
  all_goals rcases hi with hi | hi | hi | hi <;> simp_all [BranchTest, FlagChange]

/-- AND, ORA and EOR are one operation, for a combination of A and M that acts on each bit as the mnemonic says (R184 to
R186). -/
theorem exec_logic (hi : i.mnemonic = .and ∨ i.mnemonic = .ora ∨ i.mnemonic = .eor) :
    ∃ (f : Byte → Byte → Byte) (src : Source), i.operand = src.operand ∧ exec i s = .next (combineA f src s) ∧
      ∀ a m k, bit (f a m) k =
        if i.mnemonic = .and then bit a k && bit m k
        else if i.mnemonic = .ora then bit a k || bit m k
        else bit a k != bit m k := by
  obtain ⟨t, ht, hform⟩ := exec_form i s
  cases hform
  case logic f src hm hop =>
    refine ⟨f, src, hop, ht, fun a m k => ?_⟩
    rcases hm with ⟨hi, rfl⟩ | ⟨hi, rfl⟩ | ⟨hi, rfl⟩ <;> simp [hi, bit]
  all_goals rcases hi with hi | hi | hi <;> simp_all [BranchTest, FlagChange, ShiftBits]

/-- BIT is one operation (R187). -/
theorem exec_bit (hi : i.mnemonic = .bit) :
    ∃ m : MemOperand, i.operand = .memory m ∧ exec i s = .next (testBits m s) := by
  obtain ⟨t, ht, hform⟩ := exec_form i s
  cases hform
  case bit m _ hop => exact ⟨m, hop, ht⟩
  all_goals simp_all [BranchTest, FlagChange, ShiftBits]

end

/-! ### The obligations -/

/-- Settles O33, from the closed forms of a shift of A and of a byte in storage; canonical storage makes its one write
the only byte that changes. -/
theorem shiftsMoveBitsThroughCarry : Obligations.ShiftsMoveBitsThroughCarry := by
  unfold Obligations.ShiftsMoveBitsThroughCarry
  refine ⟨hasEncodings_of_rows (by decide), hasEncodings_of_rows (by decide), hasEncodings_of_rows (by decide),
    hasEncodings_of_rows (by decide), fun i s hwf hi => ?_⟩
  obtain ⟨f, t, hf, hop, he⟩ := exec_shift s hi
  cases t with
  | accumulator =>
    rw [shiftTarget_accumulator hop] at he
    exact .inl ⟨hop, _, _, hf.shiftRule s.a s.p.c, he⟩
  | memory m =>
    rw [shiftTarget_memory hop] at he
    exact .inr ⟨m, _, _, _, hop, hf.shiftRule (s.byteAt (m.ea s)) s.p.c, he, rfl,
      fun b => State.byteAt_write hwf (m.ea s) b _⟩

/-- Settles O34, from the closed form of the combination of A with M. -/
theorem logicCombinesWithA : Obligations.LogicCombinesWithA := by
  unfold Obligations.LogicCombinesWithA
  refine ⟨hasEncodings_of_rows (by decide), hasEncodings_of_rows (by decide), hasEncodings_of_rows (by decide),
    fun i s hi => ?_⟩
  obtain ⟨f, src, hop, he, hf⟩ := exec_logic s hi
  exact ⟨src, f s.a (src.value s), hop, fun k _ => hf _ _ k, he.trans (congrArg _ (combineA_eq hop f s))⟩

/-- Settles O35, from the closed form of BIT. -/
theorem bitTestsTheMemoryByte : Obligations.BitTestsTheMemoryByte := by
  unfold Obligations.BitTestsTheMemoryByte
  refine ⟨hasEncodings_of_rows (by decide), fun i s hi => ?_⟩
  obtain ⟨m, hop, he⟩ := exec_bit s hi
  exact ⟨m, hop, he.trans (congrArg _ (testBits_eq hop s))⟩

end Sys2Proof.Machine

/-! Jumps and return (R209, R211): the closed forms of the three operations, and the pointer test of R124 as an integer
fact. -/

namespace Sys2Proof.Machine

/-- The test R124 makes of the pointer's low byte, on the pointer as an integer. -/
theorem lo_eq_0xFF_iff (w : Word) : lo w = 0xFF#8 ↔ w.toNat % 256 = 255 := by
  rw [← BitVec.toNat_inj, lo, BitVec.extractLsb'_toNat, Nat.shiftRight_zero]
  rfl

/-- Settles O38, from the closed forms of the two jumps; the low byte of the pointer decides between completion and the
fault. -/
theorem jumpsAbsoluteAndIndirect : Obligations.JumpsAbsoluteAndIndirect := by
  unfold Obligations.JumpsAbsoluteAndIndirect
  refine ⟨hasEncodings_of_rows (by decide), fun w s => ⟨?absolute, fun hw => ?indirect, fun hw => ?fault⟩⟩
  case absolute => exact congrArg _ (jumpTo_eq (i := .jmpAbs w) rfl w s)
  case indirect => exact congrArg _ (jumpThrough_eq (i := .jmpInd w) rfl _ (mt (lo_eq_0xFF_iff w).mp hw) s)
  case fault => exact congrArg _ (jumpThrough_wrap _ ((lo_eq_0xFF_iff w).mpr hw) s)

/-- Settles O40, from the closed form of the return. -/
theorem rtsPullsTheReturnAddress : Obligations.RtsPullsTheReturnAddress := by
  unfold Obligations.RtsPullsTheReturnAddress
  exact ⟨hasEncodings_of_rows (by decide), fun s => congrArg _ (returnFromCall_eq (i := .rts) rfl s)⟩

end Sys2Proof.Machine

/-! Stack operations (R220 to R225): the whole next state of the two pushes and of each pull, from the closed forms of
push and pull. -/

namespace Sys2Proof.Machine

/-- PHA and PHP are one operation, for the byte that goes with the mnemonic (R220, R221). -/
theorem exec_push {i : Instr} {s : State} {v : Byte}
    (hv : (i.mnemonic = .pha ∧ v = s.a) ∨ (i.mnemonic = .php ∧ v = s.p.pack)) :
    exec i s = .next { s.past i [.onWrite (stackAddr s.sp) v] with
      sp := s.sp - 1, mem := s.mem.write (stackAddr s.sp).toNat v } := by
  obtain ⟨t, ht, hform⟩ := exec_form i s
  cases hform
  case push v' hm hsize =>
    have : v' = v := by rcases hv with ⟨hi, rfl⟩ | ⟨hi, rfl⟩ <;> simpa [hi] using hm
    rw [ht, State.opcodeFetched_push hsize, this]
  all_goals rcases hv with ⟨hi, -⟩ | ⟨hi, -⟩ <;> simp_all [BranchTest, FlagChange, ShiftBits]

/-- PLA takes A, with Z and N, from the pulled byte (R222). -/
theorem exec_pla (s : State) :
    exec .pla s = .next { s.past .pla [.onRead (stackAddr (s.sp + 1))] with
      sp := s.sp + 1
      a := s.byteAt (stackAddr (s.sp + 1))
      p := s.p.setZN (s.byteAt (stackAddr (s.sp + 1))) } := by
  simp only [exec, execPla, State.opcodeFetched_pull (i := .pla) rfl]
  rfl

/-- PLP takes the seven flags from the pulled byte (R223). -/
theorem exec_plp (s : State) :
    exec .plp s = .next { s.past .plp [.onRead (stackAddr (s.sp + 1))] with
      sp := s.sp + 1, p := Status.unpack (s.byteAt (stackAddr (s.sp + 1))) } := by
  simp only [exec, execPlp, State.opcodeFetched_pull (i := .plp) rfl]
  rfl

/-- Settles O45, from the closed form of a push; canonical storage makes its one write the only byte that changes. -/
theorem pushesWriteTheStackPage : Obligations.PushesWriteTheStackPage := by
  unfold Obligations.PushesWriteTheStackPage
  refine ⟨hasEncodings_of_rows (by decide), hasEncodings_of_rows (by decide), fun i s v hwf hv => ?_⟩
  exact ⟨_, exec_push hv, rfl, fun b => State.byteAt_write hwf (stackAddr s.sp) b v⟩

/-- Settles O24: the opcode fetch is all of a one-byte instruction, and each transfer changes the fetched state only in
what it names. -/
theorem stackPointerTransfers : Obligations.StackPointerTransfers := by
  unfold Obligations.StackPointerTransfers
  refine ⟨hasEncodings_of_rows (by decide), hasEncodings_of_rows (by decide), fun s => ⟨?tsx, ?txs⟩⟩
  case tsx =>
    exact congrArg (fun o : State => Host.Outcome.next { o with x := s.sp, p := s.p.setZN s.sp })
      (State.opcodeFetched_eq_past (i := .tsx) rfl s)
  case txs =>
    exact congrArg (fun o : State => Host.Outcome.next { o with sp := s.x })
      (State.opcodeFetched_eq_past (i := .txs) rfl s)

/-- Settles O46, from the two pulls; R30's bits of the pulled byte are `Status.unpack` of it. -/
theorem pullsReadTheStackPage : Obligations.PullsReadTheStackPage := by
  unfold Obligations.PullsReadTheStackPage
  refine ⟨hasEncodings_of_rows (by decide), hasEncodings_of_rows (by decide), fun s v hv => ?_⟩
  subst hv
  exact ⟨exec_pla s, exec_plp s⟩

end Sys2Proof.Machine

/-! Exceptions (R260, R261, R263): `State.faultOf` decides whether the step of a Running engine faults, and a step that
faults only enters the record and the fetches made before the fault. -/

namespace Sys2Proof.Machine

/-- A jump through a pointer that does not wrap completes (R124). -/
theorem run_jumpThrough {w : Word} (hw : lo w ≠ 0xFF#8) (opcode : Byte) (s : State) :
    (jumpThrough opcode w s).run = s.run := by
  rw [jumpThrough_eq (i := .jmpInd w) rfl opcode hw]
  rfl

section

variable {s : State} (hr : s.run = .running)

include hr

/-- DecodeError is raised right after the opcode fetch (R87). -/
theorem step_unassigned (hu : s.byteAt s.pc ∈ unassignedBytes) :
    step s = .next { s with
      run := .faulted .decodeError s.pc (s.byteAt s.pc), trace := s.observed (s.fetchReads 1) } := by
  obtain ⟨-, hstep⟩ | ⟨ha, -⟩ := step_running_cases hr
  · rw [hstep, State.fetchReads_one]
    rfl
  · exact absurd hu ha

/-- At opcode 0x6C the engine jumps through the pointer that the two bytes after PC hold, low byte first (R81, R209). -/
theorem step_jumpThrough (hj : s.byteAt s.pc = 0x6C#8) :
    step s = .next (jumpThrough 0x6C#8 (join (s.byteAt (s.pc + 1 + 1)) (s.byteAt (s.pc + 1))) s) := by
  simp only [step, engineStep, hr, runningStep, State.decodeAtPc, State.bytesFrom, hj]
  rfl

/-- The fault entry of each of the three faulting cases: registers, flags, PC and storage stay (R261). -/
theorem step_of_faultOf_eq_some {kind : FaultKind} (hf : s.faultOf = some kind) :
    step s = .next { s with
      run := .faulted kind s.pc (s.byteAt s.pc)
      trace := s.observed (s.fetchReads (if s.byteAt s.pc = 0x6C#8 then 3 else 1)) } := by
  unfold State.faultOf at hf
  split_ifs at hf with hu hd hj <;> cases hf
  · have hne : s.byteAt s.pc ≠ 0x6C#8 := fun h => absurd (h ▸ hu) (by decide)
    rw [step_unassigned hr hu, if_neg hne]
  · obtain ⟨-, -, -, decimalFaults, -⟩ := decimalArithmeticFaults
    have hne : s.byteAt s.pc ≠ 0x6C#8 := fun h => absurd (h ▸ hd.1) (by decide)
    rw [decimalFaults s hr hd.2 hd.1, if_neg hne, State.fetchReads_one]
  · rw [step_jumpThrough hr hj.1, jumpThrough_wrap _ ((lo_join _ _).trans hj.2), if_pos hj.1, hj.1]

/-- No other condition faults (R260): a JMP whose pointer does not wrap completes, and of the other instructions only ADC
and SBC can fault, which then need D = 1. -/
theorem step_of_faultOf_eq_none (hf : s.faultOf = none) : ∃ t, step s = .next t ∧ t.run = .running := by
  unfold State.faultOf at hf
  split_ifs at hf with hu hd hj
  by_cases hop : s.byteAt s.pc = 0x6C#8
  · have hlo : lo (join (s.byteAt (s.pc + 1 + 1)) (s.byteAt (s.pc + 1))) ≠ 0xFF#8 :=
      fun h => hj ⟨hop, (lo_join _ _).symm.trans h⟩
    exact ⟨_, step_jumpThrough hr hop, (run_jumpThrough hlo _ s).trans hr⟩
  · obtain ⟨i, hopc, hstep⟩ := step_running_assigned hr hu
    obtain ⟨t, ht, hform⟩ := exec_form i s
    refine ⟨t, hstep.trans ht, ?_⟩
    rcases hform.run_cases hr with hrun | ⟨w, rfl, -⟩ | ⟨hi, hdec, -⟩
    · exact hrun
    · exact absurd hopc.symm hop
    · exact absurd ⟨hopc ▸ (opcode_mem_decimalOpcodes_iff i).mpr hi, hdec⟩ hd

/-- The run state after a step, by the fault the state calls for. -/
theorem run_of_step {t : State} (hstep : step s = .next t) :
    t.run = s.faultOf.elim .running (fun kind => .faulted kind s.pc (s.byteAt s.pc)) := by
  cases hf : s.faultOf with
  | none =>
    obtain ⟨t', ht', hrun⟩ := step_of_faultOf_eq_none hr hf
    cases hstep.symm.trans ht'
    exact hrun
  | some kind =>
    cases hstep.symm.trans (step_of_faultOf_eq_some hr hf)
    rfl

end

/-! ### The obligations -/

/-- Settles O9: a step that does not stay Running had a fault to raise, so it is the fault entry, from which only reset
leads on. -/
theorem faultEntryIsPrecise : Obligations.FaultEntryIsPrecise := by
  unfold Obligations.FaultEntryIsPrecise
  intro s t hr hstep hstop
  cases hf : s.faultOf with
  | none => exact absurd ((run_of_step hr hstep).trans (by rw [hf]; rfl)) hstop
  | some kind =>
    cases hstep.symm.trans (step_of_faultOf_eq_some hr hf)
    exact ⟨⟨kind, rfl⟩, nofun, fun _ => rfl⟩

/-- Settles O10: the checks of `State.faultOf` are the three conditions, in their order. -/
theorem stepFaultsInTheThreeCasesOnly : Obligations.StepFaultsInTheThreeCasesOnly := by
  unfold Obligations.StepFaultsInTheThreeCasesOnly
  refine ⟨fun s t hr hstep => ?_, rfl, rfl⟩
  rw [run_of_step hr hstep, State.faultOf]
  split_ifs with hu hd hj
  · rfl
  · rfl
  · rw [← hj.1]; rfl
  · rfl

end Sys2Proof.Machine

/-! Reset (R300): the open registers and flags come from the draw (D8), PC from two reads of the RESET vector, and the
trace starts anew with those two reads. -/

namespace Sys2Proof.Machine

@[simp] theorem State.record_record (s : State) (l l' : List Access) : (s.record l).record l' = s.record (l ++ l') := by
  simp only [State.record, List.append_assoc, Params.notificationsOf_append]

/-- A two-byte read makes two accesses, the low byte's first, and changes nothing else (R55, R56). -/
theorem State.read16_eq (s : State) (a : Word) :
    s.read16 a = (join (s.byteAt (a + 1)) (s.byteAt a), s.record [.onRead a, .onRead (a + 1)]) := by
  simp [State.read16]

theorem resetVector_add_one : resetVector + 1 = 0xFFFD#16 := by decide

/-- The state in which reset reads its vector: the drawn registers and flags, Running, an empty trace (R300, D8). -/
def State.drawn (draw : ResetDraw) (s : State) : State :=
  { s with run := .running, a := draw.a, x := draw.x, y := draw.y, sp := draw.sp, p := draw.p, trace := [] }

theorem State.hostReset_eq_read16 (draw : ResetDraw) (s : State) :
    s.hostReset draw =
      { ((s.drawn draw).read16 resetVector).2 with pc := ((s.drawn draw).read16 resetVector).1 } := rfl

/-- The address is a variable here, since the kernel would evaluate the vector's own, a large literal. -/
theorem State.read16_drawn (draw : ResetDraw) (s : State) (v : Word) :
    (s.drawn draw).read16 v =
      (join (s.byteAt (v + 1)) (s.byteAt v),
        { s.drawn draw with trace := s.params.notificationsOf [.onRead v, .onRead (v + 1)] }) := by
  rw [State.read16_eq]
  rfl

/-- Settles O11: reset is the two-byte read of the RESET vector from the drawn state, whose trace is empty. -/
theorem resetLoadsPcFromTheVector : Obligations.ResetLoadsPcFromTheVector := by
  unfold Obligations.ResetLoadsPcFromTheVector
  intro draw s
  rw [State.hostReset_eq_read16, State.read16_drawn, resetVector_add_one]
  rfl

end Sys2Proof.Machine

/-! The decoder against the encoder (R80 to R84, R87, R97): every instruction is made by the row of the map its opcode
byte finds, and reading the operand bytes undoes writing them. -/

namespace Sys2Proof

/-! ### The rows and the instructions they make -/

/-- The instructions an entry of the map makes, one for each value of its operand bytes (R83). -/
inductive Shape.Makes : Shape → Instr → Prop where
  | none (i : Instr) : Makes (.none i) i
  | byte (make : Byte → Instr) (v : Byte) : Makes (.byte make) (make v)
  | word (make : Word → Instr) (w : Word) : Makes (.word make) (make w)
  | branch (make : BranchArg → Instr) (t : BranchArg) : Makes (.branch make) (make t)

theorem Shape.makes_sample (shape : Shape) : shape.Makes shape.sample := by
  cases shape <;> constructor

/-- The row of the map at an instruction's place has its opcode byte and makes it. -/
theorem opcodeTable_getElem?_rowIndex (i : Instr) :
    ∃ shape : Shape, opcodeTable[i.rowIndex]? = some ⟨i.opcode, shape⟩ ∧ shape.Makes i := by
  cases i <;> exact ⟨_, rfl, by constructor⟩

theorem nodup_opcodes : (opcodeTable.map Row.opcode).Nodup := by decide +kernel

/-- The decoder's entry for an instruction's opcode byte makes the instruction. -/
theorem opcodeEntry_opcode (i : Instr) :
    ∃ shape : Shape, opcodeEntry i.opcode = some shape ∧ Row.Sound ⟨i.opcode, shape⟩ ∧ shape.Makes i := by
  obtain ⟨shape, hrow, hmakes⟩ := opcodeTable_getElem?_rowIndex i
  have hmem := List.mem_of_getElem? hrow
  exact ⟨shape, findRow_of_mem nodup_opcodes hmem, row_sound hmem, hmakes⟩

/-- What a sound row makes has the row's opcode byte. -/
theorem Row.Sound.opcode_eq {r : Row} (hs : r.Sound) {i : Instr} (hm : r.shape.Makes i) : i.opcode = r.opcode := by
  obtain ⟨opc, shape⟩ := r
  cases hm with
  | none => exact hs.1
  | byte make v => exact (hs v).1
  | word make w => exact (hs w).1
  | branch make t => exact (hs t).1

/-- The opcode bytes of the map are those of the instructions. -/
theorem mem_opcodes_iff (opc : Byte) : opc ∈ opcodeTable.map Row.opcode ↔ ∃ i : Instr, i.opcode = opc := by
  constructor
  · intro h
    obtain ⟨r, hr, rfl⟩ := List.mem_map.mp h
    exact ⟨_, (row_sound hr).opcode_eq r.shape.makes_sample⟩
  · rintro ⟨i, rfl⟩
    obtain ⟨shape, hrow, -⟩ := opcodeTable_getElem?_rowIndex i
    exact List.mem_map.mpr ⟨_, List.mem_of_getElem? hrow, rfl⟩

/-- A byte has an entry exactly when it is the opcode byte of an instruction. -/
theorem opcodeEntry_ne_none_iff (opc : Byte) : opcodeEntry opc ≠ none ↔ ∃ i : Instr, i.opcode = opc := by
  constructor
  · intro h
    obtain ⟨shape, he⟩ := Option.ne_none_iff_exists'.mp h
    obtain ⟨r, hr, rfl, -⟩ := findRow_mem he
    exact (mem_opcodes_iff _).mp (List.mem_map_of_mem hr)
  · rintro ⟨i, rfl⟩
    obtain ⟨shape, he, -⟩ := opcodeEntry_opcode i
    rw [he]
    exact Option.some_ne_none shape

/-! ### Operand bytes, read and written -/

/-- Reading an instruction's operand bytes gives the instruction back. -/
theorem Shape.read_bytes {form : BranchOperand} {shape : Shape} {i : Instr} (hs : Row.Sound ⟨i.opcode, shape⟩)
    (hm : shape.Makes i) (hwf : i.wf form = true) (rest : List Byte) :
    shape.read form i.opcode (i.operand.bytes ++ rest) = .ok (i, rest) := by
  cases hm with
  | none =>
    obtain ⟨-, hbytes, -⟩ := hs
    rw [hbytes]
    rfl
  | byte make v =>
    obtain ⟨-, hbytes, -⟩ := hs v
    rw [hbytes]
    rfl
  | word make w =>
    obtain ⟨-, hbytes, -⟩ := hs w
    rw [hbytes, wordBytes, List.cons_append, List.cons_append, List.nil_append, Shape.read, Machine.join_hi_lo]
  | branch make t =>
    obtain ⟨-, hbytes, hfits⟩ := hs t
    rw [hfits] at hwf
    rw [hbytes]
    cases form <;> cases t <;> simp [BranchArg.fits] at hwf
    case abs16 w =>
      rw [BranchArg.bytes, wordBytes, List.cons_append, List.cons_append, List.nil_append]
      exact congrArg (fun w => Except.ok (make (.abs16 w), rest)) (Machine.join_hi_lo w)
    case rel8 => rfl

theorem wordBytes_join (h l : Byte) : wordBytes (join h l) = [l, h] := by
  rw [wordBytes, Machine.lo_join, Machine.hi_join]

/-- What reading operand bytes answers is a well-formed instruction of the row, and its operand bytes are those read. -/
theorem Shape.bytes_of_read {form : BranchOperand} {r : Row} (hs : r.Sound) {bytes rest : List Byte} {i : Instr}
    (hread : r.shape.read form r.opcode bytes = .ok (i, rest)) :
    i.opcode = r.opcode ∧ i.wf form = true ∧ i.operand.bytes ++ rest = bytes := by
  obtain ⟨opc, shape⟩ := r
  unfold Shape.read at hread
  cases shape with
  | none j =>
    cases hread
    obtain ⟨hopc, hbytes, hwf⟩ := hs
    exact ⟨hopc, hwf form, by rw [hbytes]; rfl⟩
  | byte make =>
    obtain _ | ⟨v, bs⟩ := bytes <;> cases hread
    obtain ⟨hopc, hbytes, hwf⟩ := hs v
    exact ⟨hopc, hwf form, by rw [hbytes]; rfl⟩
  | word make =>
    obtain _ | ⟨l, _ | ⟨h, bs⟩⟩ := bytes <;> cases hread
    obtain ⟨hopc, hbytes, hwf⟩ := hs (join h l)
    exact ⟨hopc, hwf form, by rw [hbytes, wordBytes_join]; rfl⟩
  | branch make =>
    cases form with
    | abs16 =>
      obtain _ | ⟨l, _ | ⟨h, bs⟩⟩ := bytes <;> cases hread
      obtain ⟨hopc, hbytes, hwf⟩ := hs (.abs16 (join h l))
      exact ⟨hopc, hwf _, by rw [hbytes, BranchArg.bytes, wordBytes_join]; rfl⟩
    | rel8 =>
      obtain _ | ⟨o, bs⟩ := bytes <;> cases hread
      obtain ⟨hopc, hbytes, hwf⟩ := hs (.rel8 o)
      exact ⟨hopc, hwf _, by rw [hbytes]; rfl⟩

theorem decode_encode {form : BranchOperand} {i : Instr} (hwf : i.wf form = true) (rest : List Byte) :
    decode form (encode i ++ rest) = .ok (i, rest) := by
  obtain ⟨shape, hentry, hs, hm⟩ := opcodeEntry_opcode i
  simp only [encode, List.cons_append, decode, hentry]
  exact Shape.read_bytes hs hm hwf rest

theorem encode_of_decode {form : BranchOperand} {bytes rest : List Byte} {i : Instr}
    (h : decode form bytes = .ok (i, rest)) : i.wf form = true ∧ encode i ++ rest = bytes := by
  cases bytes with
  | nil => cases h
  | cons opc bs =>
    cases he : opcodeEntry opc with
    | none => simp [decode, he] at h
    | some shape =>
      have hread : shape.read form opc bs = .ok (i, rest) := by simpa [decode, he] using h
      obtain ⟨r, hr, rfl, rfl⟩ := findRow_mem he
      obtain ⟨hopc, hwf, hbytes⟩ := Shape.bytes_of_read (row_sound hr) hread
      exact ⟨hwf, by rw [encode, List.cons_append, hopc, hbytes]⟩

/-! ### Widths, and the bytes at PC -/

theorem Operand.length_bytes (o : Operand) : o.bytes.length = o.width := by
  cases o with
  | memory m => cases m <;> rfl
  | relative t => cases t <;> rfl
  | _ => rfl

theorem length_encode (i : Instr) : (encode i).length = i.size := by
  rw [encode, List.length_cons, Operand.length_bytes, Instr.size, Nat.add_comm]

theorem Operand.width_le_two (o : Operand) : o.width ≤ 2 := by
  cases o with
  | memory m => cases m <;> simp [Operand.width, MemOperand.width]
  | relative t => cases t <;> simp [Operand.width, BranchArg.width]
  | _ => simp [Operand.width]

theorem Instr.size_le_three (i : Instr) : i.size ≤ 3 := by
  have := i.operand.width_le_two
  rw [Instr.size]
  omega

namespace Machine

theorem State.length_bytesFrom (s : State) (a : Word) (n : Nat) : (s.bytesFrom a n).length = n := by
  induction n generalizing a with
  | zero => rfl
  | succ n ih => rw [State.bytesFrom, List.length_cons, ih]

/-- More bytes from an address begin with fewer from there. -/
theorem State.bytesFrom_add (s : State) (a : Word) (n k : Nat) :
    ∃ rest, s.bytesFrom a (n + k) = s.bytesFrom a n ++ rest := by
  induction n generalizing a with
  | zero => exact ⟨_, rfl⟩
  | succ n ih =>
    obtain ⟨rest, h⟩ := ih (a + 1)
    exact ⟨rest, by rw [Nat.succ_add, State.bytesFrom, h]; rfl⟩

/-- The bytes the step decodes begin with those of as many bytes as an instruction has (R80). -/
theorem State.bytesFrom_size (s : State) (i : Instr) :
    ∃ rest, s.bytesFrom s.pc 3 = s.bytesFrom s.pc i.size ++ rest := by
  obtain ⟨k, hk⟩ := Nat.exists_eq_add_of_le i.size_le_three
  rw [hk]
  exact s.bytesFrom_add s.pc i.size k

theorem step_of_decode {s : State} {i : Instr} {rest : List Byte} (hr : s.run = .running)
    (hdec : decode s.params.branchOperand (s.bytesFrom s.pc 3) = .ok (i, rest)) : step s = exec i s := by
  simp only [step, engineStep, hr, runningStep, State.decodeAtPc, hdec]

/-- Where the decoder reads an instruction at PC, the bytes at PC are its encoding. -/
theorem State.bytesFrom_of_decode {s : State} {i : Instr} {rest : List Byte}
    (hdec : decode s.params.branchOperand (s.bytesFrom s.pc 3) = .ok (i, rest)) : s.bytesFrom s.pc i.size = encode i := by
  obtain ⟨-, hbytes⟩ := encode_of_decode hdec
  obtain ⟨rest', h⟩ := s.bytesFrom_size i
  have hlen : (s.bytesFrom s.pc i.size).length = (encode i).length := by
    rw [State.length_bytesFrom, length_encode]
  exact (List.append_inj (h.symm.trans hbytes.symm) hlen).1

end Machine

/-! ### The obligations -/

open Machine

/-- Settles O1: the opcode byte finds the row that makes the instruction, which reads its operand bytes back. -/
theorem decodeOfEncodeIsTheInstruction : Obligations.DecodeOfEncodeIsTheInstruction := by
  unfold Obligations.DecodeOfEncodeIsTheInstruction
  exact fun _ _ rest hwf => decode_encode hwf rest

/-- Settles O2: the row the decoder found is sound. -/
theorem encodeOfDecodeIsTheBytes : Obligations.EncodeOfDecodeIsTheBytes := by
  unfold Obligations.EncodeOfDecodeIsTheBytes
  exact fun _ _ _ _ h => encode_of_decode h

/-- Settles O3: neither the opcode bytes nor the pairs of mnemonic and mode repeat among the rows, so either determines
the row of an instruction. -/
theorem opcodeBytesPairWithMnemonicAndMode : Obligations.OpcodeBytesPairWithMnemonicAndMode := by
  unfold Obligations.OpcodeBytesPairWithMnemonicAndMode
  have opcodes : (opcodeTriples.map (fun r => r.2.1)).Nodup := nodup_opcodes
  have pairs : (opcodeTriples.map (fun r => (r.1, r.2.2))).Nodup := by decide +kernel
  refine ⟨fun i j => ⟨fun h => ?_, fun ⟨hmn, hmode⟩ => ?_⟩, rfl, nodup_opcodes, mem_opcodes_iff⟩
  · have row := List.inj_on_of_nodup_map opcodes (triple_mem i) (triple_mem j) h
    exact ⟨congrArg Prod.fst row, congrArg (fun r => r.2.2) row⟩
  · have row := List.inj_on_of_nodup_map pairs (triple_mem i) (triple_mem j) (by rw [hmn, hmode])
    exact congrArg (fun r => r.2.1) row

/-- Settles O5: the listed bytes are those without an entry of the map. -/
theorem unassignedByteRaisesDecodeError : Obligations.UnassignedByteRaisesDecodeError := by
  unfold Obligations.UnassignedByteRaisesDecodeError
  refine ⟨rfl, by decide, fun opc => ?_, fun s hr hu => ?_⟩
  · rw [← opcodeEntry_eq_none, ← opcodeEntry_ne_none_iff, not_not]
  · rw [step_unassigned hr hu, State.fetchReads_one]

/-- Settles O4: each word is the encoding of its instruction, with what is left over. -/
theorem writtenOutWordsDecode : Obligations.WrittenOutWordsDecode := by
  unfold Obligations.WrittenOutWordsDecode
  exact ⟨decode_encode (i := .ldaImm 0x2A#8) rfl [],
    decode_encode (i := .staAbs 0x6000#16) rfl [],
    decode_encode (i := .ldaIndX 0xFE#8) rfl [],
    decode_encode (i := .ldxZpY 0xF0#8) rfl [],
    decode_encode (i := .adcAbsX 0x12F0#16) rfl [],
    decode_encode (i := .cpxZp 0x10#8) rfl [],
    decode_encode (i := .decAbs 0xFFFF#16) rfl [],
    decode_encode (i := .txa) rfl [],
    decode_encode (i := .eorZp 0x80#8) rfl [],
    decode_encode (i := .rorAcc) rfl [0xFF#8],
    decode_encode (i := .jsrAbs 0x1000#16) rfl [],
    decode_encode (i := .brk) rfl [0x00#8],
    decode_encode (i := .jmpInd 0x0300#16) rfl [],
    decode_encode (i := .bne (.abs16 0x0205#16)) rfl [],
    decode_encode (i := .bne (.rel8 0xF8#8)) rfl [],
    decode_encode (i := .plp) rfl [],
    decode_encode (i := .cld) rfl []⟩

/-- Settles O6: the step adds nothing around the execution. -/
theorem stepExecutesTheDecodedInstruction : Obligations.StepExecutesTheDecodedInstruction := by
  unfold Obligations.StepExecutesTheDecodedInstruction
  exact fun _ _ _ => step_of_decode

/-- Settles O7: the three bytes at PC begin with the encoding, which the decoder reads back. -/
theorem stepExecutesTheBytesAtPc : Obligations.StepExecutesTheBytesAtPc := by
  unfold Obligations.StepExecutesTheBytesAtPc
  intro s i hr hwf hbytes
  obtain ⟨rest, h⟩ := s.bytesFrom_size i
  rw [hbytes] at h
  exact step_of_decode hr (h ▸ decode_encode hwf rest)

end Sys2Proof

/-! The step of the whole machine: what every step keeps (R39, R41 to R43), that a Running engine always has one (R110),
that observers do not influence it (R54), what they are told (R53), and the host's load and run (R129, R274). -/

namespace Sys2Proof

namespace Machine

/-! ### What a step keeps -/

theorem running_of_step {s t : State} (hstep : step s = .next t) : s.run = .running := by
  cases hr : s.run with
  | running => rfl
  | faulted kind addr opc => simp [step, engineStep, hr] at hstep

/-- What an instruction answers has one of the forms of its execution. -/
theorem form_of_exec {i : Instr} {s t : State} (hexec : exec i s = .next t) : ExecForm i s t := by
  obtain ⟨u, hu, hform⟩ := exec_form i s
  cases hexec.symm.trans hu
  exact hform

/-- Whatever a step does, it keeps the parameters and the canonical form of the storage, and it appends to the trace the
notifications of accesses that begin with the opcode fetch. -/
theorem step_keeps {s t : State} (hstep : step s = .next t) :
    t.params = s.params ∧ (s.mem.wf = true → t.mem.wf = true) ∧
      ∃ accs, t.trace = s.observed (.onRead s.pc :: accs) := by
  obtain ⟨-, hfault⟩ | ⟨-, i, rest, -, hexec⟩ := step_running_cases (running_of_step hstep)
  · cases hstep.symm.trans hfault
    exact ⟨rfl, id, [], rfl⟩
  · exact (form_of_exec (hexec.symm.trans hstep)).keeps

theorem State.inv_iff (s : State) :
    s.Inv = true ↔ s.mem.wf = true ∧ s.recordTruthful = true ∧ s.traceTruthful = true := by
  simp [State.Inv, and_assoc]

theorem State.recordTruthful_of_running {s : State} (hr : s.run = .running) : s.recordTruthful = true := by
  simp [State.recordTruthful, hr]

theorem State.recordTruthful_of_faulted {s : State} {kind : FaultKind}
    (hr : s.run = .faulted kind s.pc (s.byteAt s.pc)) (hf : s.faultOf = some kind) : s.recordTruthful = true := by
  simp [State.recordTruthful, hr, hf]

/-- Notifications appended to a truthful trace leave it truthful, for the same registrations. -/
theorem State.traceTruthful_observed {s t : State} {accs : List Access} (hs : s.traceTruthful = true)
    (hp : t.params = s.params) (ht : t.trace = s.observed accs) : t.traceTruthful = true := by
  rw [State.traceTruthful, ht, hp, State.observed, List.all_append, Params.notificationsOf_truthful, Bool.and_true]
  exact hs

/-- The record a step enters names PC, the byte there and the fault a step there raises (R261). -/
theorem recordTruthful_of_step {s t : State} (hstep : step s = .next t) : t.recordTruthful = true := by
  have hr := running_of_step hstep
  cases hf : s.faultOf with
  | none =>
    obtain ⟨u, hu, hrun⟩ := step_of_faultOf_eq_none hr hf
    cases hstep.symm.trans hu
    exact State.recordTruthful_of_running hrun
  | some kind =>
    cases hstep.symm.trans (step_of_faultOf_eq_some hr hf)
    exact State.recordTruthful_of_faulted rfl hf

/-- Settles O14: a step keeps the canonical form, enters a truthful record, and appends notifications only. -/
theorem stepKeepsTheInvariant : Obligations.StepKeepsTheInvariant := by
  unfold Obligations.StepKeepsTheInvariant
  intro s t hs hstep
  obtain ⟨hwf, -, htrace⟩ := s.inv_iff.mp hs
  obtain ⟨hparams, hkeep, accs, happend⟩ := step_keeps hstep
  exact t.inv_iff.mpr
    ⟨hkeep hwf, recordTruthful_of_step hstep, State.traceTruthful_observed htrace hparams happend⟩

/-- Settles O16, from what every step keeps. -/
theorem stepOnlyAppendsNotifications : Obligations.StepOnlyAppendsNotifications := by
  unfold Obligations.StepOnlyAppendsNotifications
  intro s t hstep
  obtain ⟨hparams, -, accs, happend⟩ := step_keeps hstep
  exact ⟨hparams, accs, happend⟩

/-- Settles O13: reset leaves storage alone, is Running, and its trace is two notifications. -/
theorem invariantHoldsAtReset : Obligations.InvariantHoldsAtReset := by
  unfold Obligations.InvariantHoldsAtReset
  refine ⟨fun draw s hwf => ?_, by decide⟩
  rw [resetLoadsPcFromTheVector draw s]
  exact (State.inv_iff _).mpr ⟨hwf, State.recordTruthful_of_running rfl, Params.notificationsOf_truthful _ _⟩

/-- Settles O12: no byte is listed, so the vector and every other address read as zero. -/
theorem resetStateHoldsTheNamedValues : Obligations.ResetStateHoldsTheNamedValues := by
  unfold Obligations.ResetStateHoldsTheNamedValues
  refine ⟨by decide, rfl, rfl, fun _ => rfl, rfl, rfl, rfl, rfl, rfl, rfl, ?_⟩
  rw [resetLoadsPcFromTheVector]
  rfl

/-! ### A step or none -/

/-- Settles O8: a Running engine completes the instruction or enters the fault the state calls for. -/
theorem runningEngineAlwaysSteps : Obligations.RunningEngineAlwaysSteps := by
  unfold Obligations.RunningEngineAlwaysSteps
  refine ⟨fun s hr => ?running, fun s kind addr opc hr => ?faulted⟩
  case running =>
    cases hf : s.faultOf with
    | none =>
      obtain ⟨t, ht, hrun⟩ := step_of_faultOf_eq_none hr hf
      exact ⟨t, ht, .inl hrun⟩
    | some kind => exact ⟨_, step_of_faultOf_eq_some hr hf, .inr ⟨kind, rfl⟩⟩
  case faulted => simp only [step, engineStep, hr]

theorem State.stepWhileRunning_stopped {s : State} (hs : s.run ≠ .running) (n : Nat) : s.stepWhileRunning n = s := by
  cases n with
  | zero => rfl
  | succ n =>
    unfold State.stepWhileRunning
    split
    · rename_i t hstep
      exact absurd (running_of_step hstep) hs
    · rfl
    · rfl

/-- A run that has stopped within a limit is the same under a larger one. -/
theorem State.stepWhileRunning_add {n : Nat} {s : State} (hstop : (s.stepWhileRunning n).run ≠ .running) (m : Nat) :
    s.stepWhileRunning (n + m) = s.stepWhileRunning n := by
  induction n generalizing s with
  | zero =>
    rw [Nat.zero_add]
    exact State.stepWhileRunning_stopped hstop m
  | succ n ih =>
    rw [Nat.succ_add]
    unfold State.stepWhileRunning at hstop ⊢
    cases hstep : step s with
    | next t =>
      rw [hstep] at hstop
      exact ih hstop
    | fault r => rfl
    | refused r => rfl

/-- Settles O18, by induction on the limit within which the run stopped. -/
theorem runEndsAtTheFirstFault : Obligations.RunEndsAtTheFirstFault := by
  unfold Obligations.RunEndsAtTheFirstFault
  exact fun draw n m s hstop => State.stepWhileRunning_add hstop m

/-! ### Observers -/

end Machine

open Machine

theorem MemOperand.ea_unobserved (m : MemOperand) (s : State) : m.ea s.unobserved = m.ea s := m.ea_of_eq rfl rfl rfl

theorem Source.value_unobserved (src : Source) (s : State) : src.value s.unobserved = src.value s := by
  cases src with
  | immediate v => rfl
  | memory m => exact congrArg s.byteAt (MemOperand.ea_unobserved m s)

/-- The closed forms of the shared operations speak of an instruction with the operand. -/
theorem Source.exists_instr (src : Source) : ∃ i : Instr, i.operand = src.operand := by
  cases src with
  | immediate v => exact ⟨.ldaImm v, rfl⟩
  | memory m =>
    cases m with
    | zeroPage nn => exact ⟨.ldaZp nn, rfl⟩
    | zeroPageX nn => exact ⟨.ldaZpX nn, rfl⟩
    | zeroPageY nn => exact ⟨.ldxZpY nn, rfl⟩
    | absolute w => exact ⟨.ldaAbs w, rfl⟩
    | absoluteX w => exact ⟨.ldaAbsX w, rfl⟩
    | absoluteY w => exact ⟨.ldaAbsY w, rfl⟩
    | indirectX nn => exact ⟨.ldaIndX nn, rfl⟩
    | indirectY nn => exact ⟨.ldaIndY nn, rfl⟩

namespace Machine

section

variable (src : Source) (m : MemOperand) (s : State)

theorem unobserved_loadA : (loadA src s).unobserved = (loadA src s.unobserved).unobserved := by
  obtain ⟨i, h⟩ := src.exists_instr
  rw [loadA_eq h, loadA_eq h, Source.value_unobserved]
  rfl

theorem unobserved_loadX : (loadX src s).unobserved = (loadX src s.unobserved).unobserved := by
  obtain ⟨i, h⟩ := src.exists_instr
  rw [loadX_eq h, loadX_eq h, Source.value_unobserved]
  rfl

theorem unobserved_loadY : (loadY src s).unobserved = (loadY src s.unobserved).unobserved := by
  obtain ⟨i, h⟩ := src.exists_instr
  rw [loadY_eq h, loadY_eq h, Source.value_unobserved]
  rfl

theorem unobserved_compareWith (r : Byte) :
    (compareWith r src s).unobserved = (compareWith r src s.unobserved).unobserved := by
  obtain ⟨i, h⟩ := src.exists_instr
  rw [compareWith_eq h, compareWith_eq h, Source.value_unobserved]
  rfl

theorem unobserved_combineA (f : Byte → Byte → Byte) :
    (combineA f src s).unobserved = (combineA f src s.unobserved).unobserved := by
  obtain ⟨i, h⟩ := src.exists_instr
  rw [combineA_eq h, combineA_eq h, Source.value_unobserved]
  rfl

/-- The addition tests D alone, which observers leave. -/
theorem unobserved_addWithCarry (opcode : Byte) (change : Byte → Byte) :
    (addWithCarry opcode change src s).unobserved = (addWithCarry opcode change src s.unobserved).unobserved := by
  obtain ⟨i, h⟩ := src.exists_instr
  cases hd : s.p.d with
  | true =>
    rw [addWithCarry_decimal _ _ _ hd, addWithCarry_decimal (s := s.unobserved) _ _ _ hd]
    rfl
  | false =>
    rw [addWithCarry_eq h _ _ hd, addWithCarry_eq (s := s.unobserved) h _ _ hd, Source.value_unobserved]
    rfl

theorem unobserved_storeByte (v : Byte) :
    (storeByte v m s).unobserved = (storeByte v m s.unobserved).unobserved := by
  obtain ⟨i, h⟩ := (Source.memory m).exists_instr
  rw [storeByte_eq h, storeByte_eq h, MemOperand.ea_unobserved]
  rfl

theorem unobserved_modifyByte (f : Byte → Byte) :
    (modifyByte f m s).unobserved = (modifyByte f m s.unobserved).unobserved := by
  obtain ⟨i, h⟩ := (Source.memory m).exists_instr
  rw [modifyByte_eq h, modifyByte_eq h, MemOperand.ea_unobserved]
  rfl

theorem unobserved_testBits : (testBits m s).unobserved = (testBits m s.unobserved).unobserved := by
  obtain ⟨i, h⟩ := (Source.memory m).exists_instr
  rw [testBits_eq h, testBits_eq h, MemOperand.ea_unobserved]
  rfl

theorem unobserved_shiftTarget (f : Byte → Bool → Byte × Bool) (t : Target) :
    (shiftTarget f t s).unobserved = (shiftTarget f t s.unobserved).unobserved := by
  cases t with
  | accumulator => rfl
  | memory m =>
    obtain ⟨i, h⟩ := (Source.memory m).exists_instr
    rw [shiftTarget_memory h, shiftTarget_memory h, MemOperand.ea_unobserved]
    rfl

theorem unobserved_branchIf (cond : Bool) (t : BranchArg) :
    (branchIf cond t s).unobserved = (branchIf cond t s.unobserved).unobserved := by
  cases cond <;> cases t <;> rfl

/-- The jump tests its operand alone. -/
theorem unobserved_jumpThrough (opcode : Byte) (w : Word) :
    (jumpThrough opcode w s).unobserved = (jumpThrough opcode w s.unobserved).unobserved := by
  unfold jumpThrough
  split <;> rfl

/-- The address is a variable here, since the kernel would evaluate the BRK vector's own, a large literal. -/
theorem byteAt_unobserved_push16 (v : Byte) (w b : Word) :
    ((s.unobserved.push v).push16 w).byteAt b = ((s.push v).push16 w).byteAt b := rfl

theorem unobserved_trapEntry (w : Word) :
    (trapEntry w s.opcodeFetched).unobserved = (trapEntry w s.unobserved.opcodeFetched).unobserved := by
  rw [trapEntry_eq (i := .brk) rfl, trapEntry_eq (i := .brk) rfl, byteAt_unobserved_push16, byteAt_unobserved_push16]
  rfl

/-- An instruction does the same whatever is observed. -/
theorem exec_unobserved (i : Instr) :
    ∃ t u, exec i s = .next t ∧ exec i s.unobserved = .next u ∧ t.unobserved = u.unobserved := by
  cases i
  case ldaImm | ldaZp | ldaZpX | ldaAbs | ldaAbsX | ldaAbsY | ldaIndX | ldaIndY =>
    exact ⟨_, _, rfl, rfl, unobserved_loadA _ s⟩
  case ldxImm | ldxZp | ldxZpY | ldxAbs | ldxAbsY => exact ⟨_, _, rfl, rfl, unobserved_loadX _ s⟩
  case ldyImm | ldyZp | ldyZpX | ldyAbs | ldyAbsX => exact ⟨_, _, rfl, rfl, unobserved_loadY _ s⟩
  case staZp | staZpX | staAbs | staAbsX | staAbsY | staIndX | staIndY | stxZp | stxZpY | stxAbs
      | styZp | styZpX | styAbs =>
    exact ⟨_, _, rfl, rfl, unobserved_storeByte _ s _⟩
  case adcImm | adcZp | adcZpX | adcAbs | adcAbsX | adcAbsY | adcIndX | adcIndY
      | sbcImm | sbcZp | sbcZpX | sbcAbs | sbcAbsX | sbcAbsY | sbcIndX | sbcIndY =>
    exact ⟨_, _, rfl, rfl, unobserved_addWithCarry _ s _ _⟩
  case cmpImm | cmpZp | cmpZpX | cmpAbs | cmpAbsX | cmpAbsY | cmpIndX | cmpIndY
      | cpxImm | cpxZp | cpxAbs | cpyImm | cpyZp | cpyAbs =>
    exact ⟨_, _, rfl, rfl, unobserved_compareWith _ s _⟩
  case incZp | incZpX | incAbs | incAbsX | decZp | decZpX | decAbs | decAbsX =>
    exact ⟨_, _, rfl, rfl, unobserved_modifyByte _ s _⟩
  case aslAcc | aslZp | aslZpX | aslAbs | aslAbsX | lsrAcc | lsrZp | lsrZpX | lsrAbs | lsrAbsX
      | rolAcc | rolZp | rolZpX | rolAbs | rolAbsX | rorAcc | rorZp | rorZpX | rorAbs | rorAbsX =>
    exact ⟨_, _, rfl, rfl, unobserved_shiftTarget s _ _⟩
  case andImm | andZp | andZpX | andAbs | andAbsX | andAbsY | andIndX | andIndY
      | oraImm | oraZp | oraZpX | oraAbs | oraAbsX | oraAbsY | oraIndX | oraIndY
      | eorImm | eorZp | eorZpX | eorAbs | eorAbsX | eorAbsY | eorIndX | eorIndY =>
    exact ⟨_, _, rfl, rfl, unobserved_combineA _ s _⟩
  case bitZp | bitAbs => exact ⟨_, _, rfl, rfl, unobserved_testBits _ s⟩
  case bcc | bcs | beq | bmi | bne | bpl | bvc | bvs => exact ⟨_, _, rfl, rfl, unobserved_branchIf s _ _⟩
  case jmpInd => exact ⟨_, _, rfl, rfl, unobserved_jumpThrough s _ _⟩
  case brk => exact ⟨_, _, rfl, rfl, unobserved_trapEntry s _⟩
  all_goals exact ⟨_, _, rfl, rfl, rfl⟩

end

/-- The step of a Running engine does the same whatever is observed. -/
theorem step_unobserved {s : State} (hr : s.run = .running) :
    ∃ t u, step s = .next t ∧ step s.unobserved = .next u ∧ t.unobserved = u.unobserved := by
  obtain ⟨hu, hfault⟩ | ⟨-, i, rest, hdec, hexec⟩ := step_running_cases hr
  · exact ⟨_, _, hfault, step_unassigned (s := s.unobserved) hr hu, rfl⟩
  · obtain ⟨t, u, ht, hu, heq⟩ := exec_unobserved s i
    exact ⟨t, u, hexec.trans ht, (step_of_decode (s := s.unobserved) hr hdec).trans hu, heq⟩

/-- Settles O15: both states step as the one state without observers that they have in common. -/
theorem observersNeverInfluenceTheMachine : Obligations.ObserversNeverInfluenceTheMachine := by
  unfold Obligations.ObserversNeverInfluenceTheMachine
  intro s s' h
  have hrun : s'.run = s.run := show s'.unobserved.run = s.unobserved.run from h ▸ rfl
  refine ⟨fun t hstep => ?_, fun r hstep => ?_⟩
  · have hr := running_of_step hstep
    obtain ⟨t₁, u, ht₁, hu, heq⟩ := step_unobserved hr
    obtain ⟨t', u', ht', hu', heq'⟩ := step_unobserved (hrun.trans hr)
    cases hstep.symm.trans ht₁
    cases (h ▸ hu).symm.trans hu'
    exact ⟨t', ht', heq.trans heq'.symm⟩
  · cases hr : s.run with
    | running =>
      obtain ⟨t, -, ht, -⟩ := step_unobserved hr
      cases hstep.symm.trans ht
    | faulted kind addr opc =>
      obtain ⟨-, hstopped⟩ := runningEngineAlwaysSteps
      rw [hstopped s' kind addr opc (hrun.trans hr), ← hstopped s kind addr opc hr, hstep]

/-- One access delivers to the first registration, if its range holds the address, and then to the others. -/
theorem notificationsOf_cons_observer (form : BranchOperand) (r : Registration) (rs : List Registration) (acc : Access) :
    Params.notificationsOf { branchOperand := form, observers := r :: rs } [acc] =
      (if r.covers acc.addr = true then [{ observer := r.observer, access := acc }] else []) ++
        Params.notificationsOf { branchOperand := form, observers := rs } [acc] := by
  simp only [Params.notificationsOf, Params.notifications, List.flatMap_cons, List.flatMap_nil, List.append_nil,
    List.filter_cons]
  split <;> rfl

/-- Settles O57, from the delivery of one access to one registration after another. -/
theorem eachRegistrationIsNotifiedInOrder : Obligations.EachRegistrationIsNotifiedInOrder := by
  unfold Obligations.EachRegistrationIsNotifiedInOrder
  refine ⟨fun form a acc hacc => ⟨rfl, fun r rs => ?_⟩,
    fun ps => ⟨rfl, Params.notificationsOf_cons ps⟩, fun s a v => ⟨rfl, rfl⟩⟩
  have haddr : acc.addr = a := by obtain rfl | ⟨v, rfl⟩ := hacc <;> rfl
  simp only [notificationsOf_cons_observer, haddr, Registration.covers_iff]

/-! ### The host's load -/

/-- Settles O17, from the laws of an image laid out as storage. -/
theorem loadedImageReadsBack : Obligations.LoadedImageReadsBack := by
  unfold Obligations.LoadedImageReadsBack
  exact fun image s a => ⟨Memory.read_ofImageFrom image 0 a.toNat a.isLt (Nat.zero_le _), s.wf_hostLoad image⟩

end Machine

end Sys2Proof

/-! The addressing-mode resolver (R118 to R127) in integers. -/

namespace Sys2Proof

open Machine

theorem toNat_zext16 (b : Byte) : (zext16 b).toNat = b.toNat := by
  rw [zext16, BitVec.toNat_setWidth]
  exact Nat.mod_eq_of_lt (by omega)

theorem toNat_zext16_add (a b : Byte) : (zext16 (a + b)).toNat = (a.toNat + b.toNat) % 256 := by
  rw [toNat_zext16, BitVec.toNat_add]

theorem toNat_add_zext16 (w : Word) (b : Byte) : (w + zext16 b).toNat = (w.toNat + b.toNat) % 65536 := by
  rw [BitVec.toNat_add, toNat_zext16]

theorem Machine.State.record_nil (s : State) : s.record [] = s := by
  simp only [State.record, Params.notificationsOf_nil, List.append_nil]

/-- Fetching one operand byte and reading two pointer cells. -/
theorem Machine.State.fetch_one_record (s : State) (a b : Word) :
    (s.fetch 1).record [.onRead a, .onRead b] =
      { s with pc := s.pc + 1, trace := s.observed [.onRead s.pc, .onRead a, .onRead b] } := by
  rw [State.fetch_eq, State.fetchReads_one, State.record]
  simp only [State.observed_append]
  rfl

/-- Settles O20: X, Y and storage give the address of each mode; only the indexed indirect modes read pointer cells. -/
theorem resolverFollowsTheModes : Obligations.ResolverFollowsTheModes := by
  unfold Obligations.ResolverFollowsTheModes
  refine ⟨MemOperand.ea_opcodeFetched, fun nn s => ⟨toNat_zext16 nn, toNat_zext16_add nn s.x, toNat_zext16_add nn s.y⟩,
    fun w s => ⟨rfl, toNat_add_zext16 w s.x, toNat_add_zext16 w s.y⟩, fun nn p q s hp hq => ?indirectX,
    fun nn q s hq => ?indirectY, fun m s hX hY => ?direct⟩
  case indirectX =>
    obtain rfl : p = nn + s.x := BitVec.eq_of_toNat_eq (hp.trans (BitVec.toNat_add _ _).symm)
    obtain rfl : q = nn + s.x + 1 := BitVec.eq_of_toNat_eq (hq.trans (BitVec.toNat_add _ 1).symm)
    exact ⟨join_toNat _ _, s.fetch_one_record _ _⟩
  case indirectY =>
    obtain rfl : q = nn + 1 := BitVec.eq_of_toNat_eq (hq.trans (BitVec.toNat_add _ 1).symm)
    refine ⟨?_, s.fetch_one_record _ _⟩
    rw [MemOperand.resolve, MemOperand.ea, toNat_add_zext16, zeroPagePointer, join_toNat]
  case direct =>
    have noPointer : m.pointerCells s = [] := by
      cases m with
      | indirectX => exact absurd rfl hX
      | indirectY => exact absurd rfl hY
      | _ => rfl
    rw [MemOperand.resolve, noPointer, List.map_nil, State.record_nil, State.fetch_eq]

theorem Machine.State.fetch_two (s : State) :
    s.fetch 2 = { s with pc := s.pc + 2, trace := s.observed [.onRead s.pc, .onRead (s.pc + 1)] } := by
  rw [State.fetch_eq, State.fetchReads_succ, State.fetchReads_one]
  rfl

theorem Machine.State.fetch_one (s : State) :
    s.fetch 1 = { s with pc := s.pc + 1, trace := s.observed [.onRead s.pc] } := by
  rw [State.fetch_eq, State.fetchReads_one]
  rfl

/-- A signed offset added to an address, modulo 65,536 (R127). -/
theorem toNat_add_sext16 (w : Word) (o : Byte) : ((w + sext16 o).toNat : Int) = ((w.toNat : Int) + o.toInt) % 65536 := by
  have hext : (sext16 o).toInt = o.toInt := BitVec.toInt_signExtend_of_le (by decide)
  rw [BitVec.toInt_eq_toNat_cond] at hext
  rw [← hext, BitVec.toNat_add]
  split <;> omega

/-- Settles O37, from the closed form of a fetch. -/
theorem branchTargetsInBothForms : Obligations.BranchTargetsInBothForms := by
  unfold Obligations.BranchTargetsInBothForms
  refine fun s => ⟨fun w => congrArg (Prod.mk w) s.fetch_two, fun o => ⟨?_, s.fetch_one⟩⟩
  rw [show ((BranchArg.rel8 o).resolve s).1 = s.pc + 1 + sext16 o from rfl,
    toNat_add_sext16, BitVec.toNat_add]
  exact Int.emod_add_emod (s.pc.toNat + 1) 65536 o.toInt

end Sys2Proof

/-! One-byte instructions on registers and flags (R146 to R149, R169 to R172, R240 to R247): the opcode fetch is all of
the instruction, and what it names is changed in the fetched state. -/

namespace Sys2Proof.Machine

/-- A change `F` of the state after the opcode fetch is one of the state past the instruction. -/
theorem next_opcodeFetched {i : Instr} (h : i.size = 1) (F : State → State) (s : State) :
    (.next (F s.opcodeFetched) : Result) = .next (F (s.past i [])) :=
  congrArg (fun o => Host.Outcome.next (F o)) (State.opcodeFetched_eq_past h s)

/-- Settles O23: each transfer changes the fetched state in its destination, Z and N only. -/
theorem transfersCopyARegister : Obligations.TransfersCopyARegister := by
  unfold Obligations.TransfersCopyARegister
  refine ⟨hasEncodings_of_rows (by decide), hasEncodings_of_rows (by decide), hasEncodings_of_rows (by decide),
    hasEncodings_of_rows (by decide), fun s => ⟨?tax, ?tay, ?txa, ?tya⟩⟩
  case tax => exact next_opcodeFetched rfl (fun o => { o with x := s.a, p := s.p.setZN s.a }) s
  case tay => exact next_opcodeFetched rfl (fun o => { o with y := s.a, p := s.p.setZN s.a }) s
  case txa => exact next_opcodeFetched rfl (fun o => { o with a := s.x, p := s.p.setZN s.x }) s
  case tya => exact next_opcodeFetched rfl (fun o => { o with a := s.y, p := s.p.setZN s.y }) s

theorem toNat_sub_one (b : Byte) : (b - 1).toNat = (b.toNat + 255) % 256 := by
  rw [BitVec.toNat_sub, Nat.add_comm]
  rfl

/-- Settles O32: each count changes the fetched state in its register, Z and N only. -/
theorem indexRegistersCountModulo256 : Obligations.IndexRegistersCountModulo256 := by
  unfold Obligations.IndexRegistersCountModulo256
  refine ⟨hasEncodings_of_rows (by decide), hasEncodings_of_rows (by decide), hasEncodings_of_rows (by decide),
    hasEncodings_of_rows (by decide), fun s => ⟨s.x + 1, s.y + 1, s.x - 1, s.y - 1, BitVec.toNat_add _ 1,
      BitVec.toNat_add _ 1, toNat_sub_one s.x, toNat_sub_one s.y, ?inx, ?iny, ?dex, ?dey⟩⟩
  case inx => exact next_opcodeFetched rfl (setX (s.x + 1)) s
  case iny => exact next_opcodeFetched rfl (setY (s.y + 1)) s
  case dex => exact next_opcodeFetched rfl (setX (s.x - 1)) s
  case dey => exact next_opcodeFetched rfl (setY (s.y - 1)) s

/-- Settles O50, from the closed form of a change of the status alone. -/
theorem flagInstructionsWriteOneFlag : Obligations.FlagInstructionsWriteOneFlag := by
  unfold Obligations.FlagInstructionsWriteOneFlag
  refine ⟨hasEncodings_of_rows (by decide), hasEncodings_of_rows (by decide), hasEncodings_of_rows (by decide),
    hasEncodings_of_rows (by decide), hasEncodings_of_rows (by decide), hasEncodings_of_rows (by decide),
    hasEncodings_of_rows (by decide), fun s => ⟨?clc, ?sec, ?cli, ?sei, ?cld, ?sed, ?clv⟩⟩
  case clc => exact congrArg _ (withStatus_eq (i := .clc) rfl _ s)
  case sec => exact congrArg _ (withStatus_eq (i := .sec) rfl _ s)
  case cli => exact congrArg _ (withStatus_eq (i := .cli) rfl _ s)
  case sei => exact congrArg _ (withStatus_eq (i := .sei) rfl _ s)
  case cld => exact congrArg _ (withStatus_eq (i := .cld) rfl _ s)
  case sed => exact congrArg _ (withStatus_eq (i := .sed) rfl _ s)
  case clv => exact congrArg _ (withStatus_eq (i := .clv) rfl _ s)

/-- Settles O51: the opcode fetch is all that NOP does. -/
theorem nopOnlyAdvances : Obligations.NopOnlyAdvances := by
  unfold Obligations.NopOnlyAdvances
  exact ⟨hasEncodings_of_rows (by decide), next_opcodeFetched rfl id⟩

end Sys2Proof.Machine

/-! Branches, calls, BRK and RTI (R200 to R208, R210, R212, R213), and what the pushed bytes are good for: each return
undoes its call, each pull its push (R26, R30). -/

namespace Sys2Proof.Machine

/-! ### Branches -/

/-- A branch tests its flag in its polarity (R201 to R208). -/
theorem exec_branch {i : Instr} {s : State} {cond : Bool} (htest : BranchTest i.mnemonic s.p cond) :
    ∃ t : BranchArg, i.operand = .relative t ∧ exec i s = .next (branchIf cond t s) := by
  obtain ⟨u, hu, hform⟩ := exec_form i s
  cases hform
  case branch cond' t hm hop =>
    have : cond' = cond := by
      rcases htest with ⟨hi, rfl⟩ | ⟨hi, rfl⟩ | ⟨hi, rfl⟩ | ⟨hi, rfl⟩ | ⟨hi, rfl⟩ | ⟨hi, rfl⟩ | ⟨hi, rfl⟩ |
          ⟨hi, rfl⟩ <;>
        simpa [BranchTest, hi] using hm
    exact ⟨t, hop, this ▸ hu⟩
  all_goals
    rcases htest with ⟨hi, -⟩ | ⟨hi, -⟩ | ⟨hi, -⟩ | ⟨hi, -⟩ | ⟨hi, -⟩ | ⟨hi, -⟩ | ⟨hi, -⟩ | ⟨hi, -⟩ <;>
      simp_all [FlagChange, ShiftBits]

/-- Settles O36, from the closed form of a branch. -/
theorem branchesFollowTheirFlag : Obligations.BranchesFollowTheirFlag := by
  unfold Obligations.BranchesFollowTheirFlag
  refine ⟨hasEncodings_of_rows (by decide), hasEncodings_of_rows (by decide), hasEncodings_of_rows (by decide),
    hasEncodings_of_rows (by decide), hasEncodings_of_rows (by decide), hasEncodings_of_rows (by decide),
    hasEncodings_of_rows (by decide), hasEncodings_of_rows (by decide), fun i s cond htest => ?_⟩
  obtain ⟨t, hop, he⟩ := exec_branch htest
  exact ⟨t, hop, he.trans (congrArg _ (branchIf_eq hop cond s))⟩

/-! ### Calls, BRK and RTI -/

theorem exec_jsr (w : Word) (s : State) :
    exec (.jsrAbs w) s = .next { s.past (.jsrAbs w) [.onWrite (stackAddr s.sp) (hi (s.pc + 2)),
        .onWrite (stackAddr (s.sp - 1)) (lo (s.pc + 2))] with
      sp := s.sp - 2, mem := (s.push16 (s.pc + 2)).mem, pc := w } :=
  congrArg Host.Outcome.next (callTo_eq (i := .jsrAbs w) rfl w s)

theorem exec_rts (s : State) :
    exec .rts s = .next { s.past .rts [.onRead (stackAddr (s.sp + 1)), .onRead (stackAddr (s.sp + 2))] with
      sp := s.sp + 2, pc := join (s.byteAt (stackAddr (s.sp + 2))) (s.byteAt (stackAddr (s.sp + 1))) + 1 } :=
  congrArg Host.Outcome.next (returnFromCall_eq (i := .rts) rfl s)

theorem exec_rti (s : State) :
    exec .rti s = .next { s.past .rti [.onRead (stackAddr (s.sp + 1)), .onRead (stackAddr (s.sp + 2)),
        .onRead (stackAddr (s.sp + 3))] with
      sp := s.sp + 3
      pc := join (s.byteAt (stackAddr (s.sp + 2))) (s.byteAt (stackAddr (s.sp + 1)))
      p := Status.unpack (s.byteAt (stackAddr (s.sp + 3))) } :=
  congrArg Host.Outcome.next (trapReturn_eq (i := .rti) rfl s)

/-- Settles O39, from the closed form of a call and the bytes a pushed word leaves. -/
theorem jsrPushesTheReturnAddress : Obligations.JsrPushesTheReturnAddress := by
  unfold Obligations.JsrPushesTheReturnAddress
  refine ⟨hasEncodings_of_rows (by decide), fun w s hwf => ⟨_, exec_jsr w s, rfl, fun b => ?_⟩⟩
  have pushed := State.byteAt_push16 hwf (s.pc + 2) b
  dsimp only [State.byteAt] at pushed ⊢
  exact pushed

/-- Settles O43; R30's bits of the pulled byte are `Status.unpack` of it. -/
theorem rtiRestoresAddressAndFlags : Obligations.RtiRestoresAddressAndFlags := by
  unfold Obligations.RtiRestoresAddressAndFlags
  refine ⟨hasEncodings_of_rows (by decide), fun s f hf => ?_⟩
  subst hf
  exact exec_rti s

/-- What the storage holds after a status and a return address are pushed. -/
theorem State.byteAt_push_push16 {s : State} (hwf : s.mem.wf = true) (v : Byte) (w b : Word) :
    ((s.push v).push16 w).byteAt b =
      if b = stackAddr s.sp then v
      else if b = stackAddr (s.sp - 1) then hi w
      else if b = stackAddr (s.sp - 2) then lo w else s.byteAt b := by
  have h2 : s.sp - 1 - 1 = s.sp - 2 := by bv_omega
  have hne1 : stackAddr s.sp ≠ stackAddr (s.sp - 1) := stackAddr_ne (by bv_omega)
  have hne2 : stackAddr s.sp ≠ stackAddr (s.sp - 2) := stackAddr_ne (by bv_omega)
  rw [State.byteAt_push16 (State.wf_push hwf v), State.byteAt_push hwf, State.push_sp, h2]
  by_cases h : b = stackAddr s.sp
  · rw [if_pos h, if_pos h, if_neg (h ▸ hne1), if_neg (h ▸ hne2)]
  · rw [if_neg h, if_neg h]

/-! What is pushed stays in the stack page (R24, R25); the BRK vector lies outside it. -/

section

variable {s : State} (hwf : s.mem.wf = true) {b : Word} (hb : region b ≠ .stackPage)

include hwf hb

theorem State.byteAt_push_of_not_stackPage (v : Byte) : (s.push v).byteAt b = s.byteAt b := by
  rw [State.byteAt_push hwf, if_neg fun h : b = _ => hb (h ▸ region_stackAddr s.sp)]

theorem State.byteAt_push16_of_not_stackPage (w : Word) : (s.push16 w).byteAt b = s.byteAt b := by
  rw [State.push16, State.byteAt_push_of_not_stackPage (State.wf_push hwf _) hb,
    State.byteAt_push_of_not_stackPage hwf hb]

theorem State.byteAt_push_push16_of_not_stackPage (v : Byte) (w : Word) :
    ((s.push v).push16 w).byteAt b = s.byteAt b := by
  rw [State.byteAt_push16_of_not_stackPage (State.wf_push hwf _) hb, State.byteAt_push_of_not_stackPage hwf hb]

end

theorem brkVector_add_one : brkVector + 1 = 0xFFFF#16 := by decide

theorem region_brkVector : region brkVector ≠ .stackPage ∧ region (brkVector + 1) ≠ .stackPage := by decide

/-- BRK in closed form, over canonical storage (R212). -/
theorem exec_brk {s : State} (hwf : s.mem.wf = true) :
    exec .brk s = .next { s.past .brk [.onWrite (stackAddr s.sp) s.p.pack, .onWrite (stackAddr (s.sp - 1)) (hi (s.pc + 2)),
        .onWrite (stackAddr (s.sp - 2)) (lo (s.pc + 2)), .onRead brkVector, .onRead (brkVector + 1)] with
      sp := s.sp - 3
      mem := ((s.push s.p.pack).push16 (s.pc + 2)).mem
      pc := join (s.byteAt (brkVector + 1)) (s.byteAt brkVector)
      p := { s.p with b := true } } := by
  have he : exec .brk s = .next (trapEntry (s.pc + 2) s.opcodeFetched) := rfl
  rw [he, trapEntry_eq (i := .brk) rfl, State.byteAt_push_push16_of_not_stackPage hwf region_brkVector.1,
    State.byteAt_push_push16_of_not_stackPage hwf region_brkVector.2]

/-- Settles O42, from the closed form of BRK and the bytes it pushes. -/
theorem brkEntersThroughTheVector : Obligations.BrkEntersThroughTheVector := by
  unfold Obligations.BrkEntersThroughTheVector
  refine ⟨hasEncodings_of_rows (by decide), fun s hwf => ⟨_, exec_brk hwf, ?_, fun b => ?_⟩⟩
  · rw [brkVector_add_one, brkVector]
  · have pushed := State.byteAt_push_push16 hwf s.p.pack (s.pc + 2) b
    dsimp only [State.byteAt] at pushed ⊢
    exact pushed

/-! ### Returns undo calls, pulls undo pushes -/

/-- Settles O41: RTS pulls the two bytes the JSR pushed, which are those of the address before the next instruction. -/
theorem jsrThenRtsResumesAfterTheCall : Obligations.JsrThenRtsResumesAfterTheCall := by
  unfold Obligations.JsrThenRtsResumesAfterTheCall
  intro w s hwf
  obtain ⟨-, jsr⟩ := jsrPushesTheReturnAddress
  obtain ⟨t, ht, heq, hmem⟩ := jsr w s hwf
  have hsp : t.sp = s.sp - 2 := congrArg State.sp heq
  have sp1 : t.sp + 1 = s.sp - 1 := by rw [hsp]; bv_omega
  have sp2 : t.sp + 2 = s.sp := by rw [hsp]; bv_omega
  have high : t.byteAt (stackAddr (t.sp + 2)) = hi (s.pc + 2) := by rw [sp2, hmem, if_pos rfl]
  have low : t.byteAt (stackAddr (t.sp + 1)) = lo (s.pc + 2) := by
    rw [sp1, hmem, if_neg (stackAddr_ne (by bv_omega)), if_pos rfl]
  refine ⟨t, _, ht, congrArg State.pc heq, exec_rts t, ?_, sp2, (congrArg State.a heq :), (congrArg State.x heq :),
    (congrArg State.y heq :), (congrArg State.p heq :)⟩
  dsimp only
  rw [high, low, join_hi_lo]
  bv_omega

/-- Settles O44: RTI pulls the three bytes the BRK pushed. -/
theorem brkThenRtiRestoresTheMachine : Obligations.BrkThenRtiRestoresTheMachine := by
  unfold Obligations.BrkThenRtiRestoresTheMachine
  intro s hwf
  obtain ⟨-, brk⟩ := brkEntersThroughTheVector
  obtain ⟨t, ht, heq, hmem⟩ := brk s hwf
  have hsp : t.sp = s.sp - 3 := congrArg State.sp heq
  have sp1 : t.sp + 1 = s.sp - 2 := by rw [hsp]; bv_omega
  have sp2 : t.sp + 2 = s.sp - 1 := by rw [hsp]; bv_omega
  have sp3 : t.sp + 3 = s.sp := by rw [hsp]; bv_omega
  have status : t.byteAt (stackAddr (t.sp + 3)) = s.p.pack := by rw [sp3, hmem, if_pos rfl]
  have high : t.byteAt (stackAddr (t.sp + 2)) = hi (s.pc + 2) := by
    rw [sp2, hmem, if_neg (stackAddr_ne (by bv_omega)), if_pos rfl]
  have low : t.byteAt (stackAddr (t.sp + 1)) = lo (s.pc + 2) := by
    rw [sp1, hmem, if_neg (stackAddr_ne (by bv_omega)), if_neg (stackAddr_ne (by bv_omega)), if_pos rfl]
  refine ⟨t, _, ht, exec_rti t, ?_, sp3, ?_, (congrArg State.a heq :), (congrArg State.x heq :), (congrArg State.y heq :),
    (congrArg State.run heq :)⟩
  · dsimp only
    rw [high, low, join_hi_lo]
  · dsimp only
    rw [status, Status.unpack_pack]

/-- Settles O47: a pull reads the byte just pushed. -/
theorem pushThenPullRestores : Obligations.PushThenPullRestores := by
  unfold Obligations.PushThenPullRestores
  intro s hwf
  obtain ⟨-, -, push⟩ := pushesWriteTheStackPage
  have sp_back : s.sp - 1 + 1 = s.sp := by bv_omega
  constructor
  · obtain ⟨t, ht, heq, hmem⟩ := push .pha s s.a hwf (.inl ⟨rfl, rfl⟩)
    have hsp : t.sp + 1 = s.sp := (congrArg (State.sp · + 1) heq).trans sp_back
    have top : t.byteAt (stackAddr (t.sp + 1)) = s.a := by rw [hsp, hmem, if_pos rfl]
    refine ⟨t, _, ht, exec_pla t, top, hsp, ?_⟩
    dsimp only
    rw [top, heq]
    rfl
  · obtain ⟨t, ht, heq, hmem⟩ := push .php s s.p.pack hwf (.inr ⟨rfl, rfl⟩)
    have hsp : t.sp + 1 = s.sp := (congrArg (State.sp · + 1) heq).trans sp_back
    have top : t.byteAt (stackAddr (t.sp + 1)) = s.p.pack := by rw [hsp, hmem, if_pos rfl]
    refine ⟨t, _, ht, exec_plp t, ?_, hsp, (congrArg State.a heq :)⟩
    dsimp only
    rw [top, Status.unpack_pack]

end Sys2Proof.Machine

/-! Signed and unsigned overflow of ADC (R160), and the borrow of SBC (the corner cases of R163). -/

namespace Sys2Proof.Machine

theorem bit_seven (b : Byte) : bit b 7 = decide (128 ≤ b.toNat) := BitVec.msb_eq_decide b

/-- The result of the addition and its carry are the unbounded sum. -/
theorem toNat_adcResult_add_carry (a m : Byte) (c : Bool) :
    (adcResult a m c).toNat + 256 * (decide (0xFF < adcSum a m c)).toNat = a.toNat + m.toNat + c.toNat := by
  have hc := c.toNat_lt
  rw [toNat_adcResult, adcSum]
  by_cases h : 0xFF < a.toNat + m.toNat + c.toNat
  · rw [decide_eq_true h, Bool.toNat_true]
    omega
  · rw [decide_eq_false h, Bool.toNat_false]
    omega

/-- V says that the signed sum leaves the range of a byte (R160): the addends agree in bit 7 and the result does not. -/
theorem adc_overflow_iff (a m : Byte) (c : Bool) :
    ((bit a 7 == bit m 7) && (bit a 7 != bit (adcResult a m c) 7)) = true ↔
      a.toInt + m.toInt + (c.toNat : Int) < -128 ∨ 127 < a.toInt + m.toInt + (c.toNat : Int) := by
  have hc := c.toNat_lt
  have hr := toNat_adcResult a m c
  simp only [bit_seven, Bool.and_eq_true, beq_iff_eq, bne_iff_ne, decide_eq_decide, ne_eq, BitVec.toInt_eq_toNat_cond]
  split_ifs <;> omega

/-- Settles O27, from the closed form of the addition. -/
theorem adcOverflowIsSignedRange : Obligations.AdcOverflowIsSignedRange := by
  unfold Obligations.AdcOverflowIsSignedRange
  intro i s t hi hd hexec
  obtain ⟨src, hop, he⟩ := exec_arithmetic s (.inl ⟨hi, rfl⟩)
  rw [addWithCarry_eq hop _ _ hd] at he
  cases hexec.symm.trans he
  exact ⟨src, hop, adc_overflow_iff _ _ _, toNat_adcResult_add_carry _ _ _⟩

/-- Settles O28: the unbounded sum with the complement of M is A - M - (1 - C) + 256. -/
theorem sbcIsSubtractionWithBorrow : Obligations.SbcIsSubtractionWithBorrow := by
  unfold Obligations.SbcIsSubtractionWithBorrow
  intro i s t hi hd hexec
  obtain ⟨src, hop, he⟩ := exec_arithmetic s (.inr ⟨hi, rfl⟩)
  rw [addWithCarry_eq hop _ _ hd] at he
  cases hexec.symm.trans he
  have hc := s.p.c.toNat_lt
  have hm : (~~~src.value s).toNat = 255 - (src.value s).toNat := BitVec.toNat_not
  have hsum := toNat_adcResult_add_carry s.a (~~~src.value s) s.p.c
  refine ⟨src, hop, ?_, ?_⟩
  · simp only [Status.afterAdc, adcSum, hm, decide_eq_true_eq]
    omega
  · dsimp only [Status.afterAdc]
    omega

end Sys2Proof.Machine

/-! Which instructions write which part of the state (R20 to R38, R57, R59, R114, R130), read off the forms an execution
can have. -/

namespace Sys2Proof.Machine

/-- Where the flags, the registers and PC after an instruction differ from before, the instruction is one that the rules
name for it. -/
structure NamedWriters (i : Instr) (s t : State) : Prop where
  /-- R32 -/
  carry : t.p.c ≠ s.p.c → i.mnemonic ∈ [.adc, .sbc, .cmp, .cpx, .cpy, .asl, .lsr, .rol, .ror, .clc, .sec, .plp, .rti]
  /-- R33, R38 -/
  zeroNegative : t.p.z ≠ s.p.z ∨ t.p.n ≠ s.p.n → i.mnemonic ∈
    [.lda, .ldx, .ldy, .tax, .tay, .txa, .tya, .tsx, .pla, .adc, .sbc, .and, .ora, .eor, .inc, .dec, .inx, .iny, .dex,
     .dey, .asl, .lsr, .rol, .ror, .cmp, .cpx, .cpy, .bit, .plp, .rti]
  /-- R34 -/
  interrupt : t.p.i ≠ s.p.i → i.mnemonic ∈ [.cli, .sei, .plp, .rti]
  /-- R35 -/
  decimal : t.p.d ≠ s.p.d → i.mnemonic ∈ [.cld, .sed, .plp, .rti]
  /-- R36 -/
  brk : t.p.b ≠ s.p.b → i.mnemonic ∈ [.brk, .plp, .rti]
  /-- R37 -/
  overflow : t.p.v ≠ s.p.v → i.mnemonic ∈ [.adc, .sbc, .bit, .clv, .plp, .rti]
  /-- R21 -/
  regA : t.a ≠ s.a → i.mnemonic ∈ [.lda, .pla, .txa, .tya, .adc, .sbc, .and, .ora, .eor] ∨
    (i.mnemonic ∈ [.asl, .lsr, .rol, .ror] ∧ i.mode = .accumulator)
  /-- R22 -/
  regX : t.x ≠ s.x → i.mnemonic ∈ [.ldx, .tax, .tsx, .inx, .dex]
  /-- R23 -/
  regY : t.y ≠ s.y → i.mnemonic ∈ [.ldy, .tay, .iny, .dey]
  /-- R24 -/
  regSP : t.sp ≠ s.sp → i.mnemonic ∈ [.txs, .pha, .php, .pla, .plp, .jsr, .rts, .brk, .rti]
  /-- R114 -/
  regPC : s.run = .running → t.run = .running → t.pc ≠ s.pc + BitVec.ofNat 16 i.size →
    i.mnemonic ∈ [.bcc, .bcs, .beq, .bmi, .bne, .bpl, .bvc, .bvs, .jmp, .jsr, .rts, .brk, .rti]

theorem ExecForm.namedWriters {i : Instr} {s t : State} (h : ExecForm i s t) : NamedWriters i s t := by
  cases h
  case lda src hm h => rw [loadA_eq h]; constructor <;> simp [hm]
  case ldx src hm h => rw [loadX_eq h]; constructor <;> simp [hm]
  case ldy src hm h => rw [loadY_eq h]; constructor <;> simp [hm]
  case store v m hm h => rw [storeByte_eq h]; constructor <;> simp
  case arithmetic change src hm h =>
    cases hd : s.p.d with
    | true => rw [addWithCarry_decimal _ _ _ hd]; constructor <;> simp
    | false =>
      rw [addWithCarry_eq h _ _ hd]
      rcases hm with ⟨hm, -⟩ | ⟨hm, -⟩ <;> constructor <;> simp [hm, Status.afterAdc]
  case compare r src hm h =>
    rw [compareWith_eq h]
    rcases hm with ⟨hm, -⟩ | ⟨hm, -⟩ | ⟨hm, -⟩ <;> constructor <;> simp [hm, Status.afterCompare]
  case incDec f m hm h =>
    rw [modifyByte_eq h]
    rcases hm with ⟨hm, -⟩ | ⟨hm, -⟩ <;> constructor <;> simp [hm]
  case countX v hm _ => rcases hm with ⟨hm, -⟩ | ⟨hm, -⟩ <;> constructor <;> simp [hm]
  case countY v hm _ => rcases hm with ⟨hm, -⟩ | ⟨hm, -⟩ <;> constructor <;> simp [hm]
  case shift f t hm h =>
    cases t with
    | accumulator =>
      have hmode : i.mode = .accumulator := congrArg Operand.mode h
      rw [shiftTarget_accumulator h]
      rcases hm with ⟨hm, -⟩ | ⟨hm, -⟩ | ⟨hm, -⟩ | ⟨hm, -⟩ <;> constructor <;> simp [hm, hmode, Status.afterShift]
    | memory m =>
      rw [shiftTarget_memory h]
      rcases hm with ⟨hm, -⟩ | ⟨hm, -⟩ | ⟨hm, -⟩ | ⟨hm, -⟩ <;> constructor <;> simp [hm, Status.afterShift]
  case logic f src hm h =>
    rw [combineA_eq h]
    rcases hm with ⟨hm, -⟩ | ⟨hm, -⟩ | ⟨hm, -⟩ <;> constructor <;> simp [hm]
  case bit m hm h => rw [testBits_eq h]; constructor <;> simp [hm, Status.afterBit]
  case branch cond t hm h =>
    rw [branchIf_eq h]
    rcases hm with ⟨hm, -⟩ | ⟨hm, -⟩ | ⟨hm, -⟩ | ⟨hm, -⟩ | ⟨hm, -⟩ | ⟨hm, -⟩ | ⟨hm, -⟩ | ⟨hm, -⟩ <;>
      cases cond <;> constructor <;> simp [hm]
  case jump w hm hi => subst hi; rw [jumpTo_eq (i := .jmpAbs w) rfl]; constructor <;> simp [hm]
  case jumpThrough w hm hi =>
    subst hi
    by_cases hw : lo w = 0xFF#8
    · rw [jumpThrough_wrap _ hw]; constructor <;> simp [hm]
    · rw [jumpThrough_eq (i := .jmpInd w) rfl _ hw]; constructor <;> simp [hm]
  case call w hm hi => subst hi; rw [callTo_eq (i := .jsrAbs w) rfl]; constructor <;> simp [hm]
  case rts hm hi => subst hi; rw [returnFromCall_eq (i := .rts) rfl]; constructor <;> simp [hm]
  case brk hm hi => subst hi; rw [trapEntry_eq (i := .brk) rfl]; constructor <;> simp [hm]
  case rti hm hi => subst hi; rw [trapReturn_eq (i := .rti) rfl]; constructor <;> simp [hm]
  case push v hm hs =>
    rw [State.opcodeFetched_push hs]
    rcases hm with ⟨hm, -⟩ | ⟨hm, -⟩ <;> constructor <;> simp [hm]
  case pla hm hi => subst hi; rw [State.opcodeFetched_pull (i := .pla) rfl]; constructor <;> simp [hm]
  case plp hm hi => subst hi; rw [State.opcodeFetched_pull (i := .plp) rfl]; constructor <;> simp [hm]
  case flag q hm hs =>
    rcases hm with ⟨hm, rfl⟩ | ⟨hm, rfl⟩ | ⟨hm, rfl⟩ | ⟨hm, rfl⟩ | ⟨hm, rfl⟩ | ⟨hm, rfl⟩ | ⟨hm, rfl⟩ <;>
      constructor <;> simp [hm]
  case nop hm hi => constructor <;> simp
  all_goals rename_i hm _; constructor <;> simp [hm]

/-- What an instruction does to the storage: nothing, or one write at its effective address, or pushes, which stay in the
stack page. -/
theorem ExecForm.mem_cases {i : Instr} {s t : State} (h : ExecForm i s t) :
    t.mem = s.mem ∨
    (i.mnemonic ∈ [.sta, .stx, .sty, .inc, .dec, .asl, .lsr, .rol, .ror] ∧
      ∃ m v, i.operand = .memory m ∧ t.mem = s.mem.write (m.ea s).toNat v) ∨
    (i.mnemonic ∈ [.pha, .php, .jsr, .brk] ∧
      ∃ u : State, t.mem = u.mem ∧
        (s.mem.wf = true → ∀ b : Word, region b ≠ .stackPage → u.byteAt b = s.byteAt b)) := by
  cases h
  case lda src hm h => rw [loadA_eq h]; exact .inl rfl
  case ldx src hm h => rw [loadX_eq h]; exact .inl rfl
  case ldy src hm h => rw [loadY_eq h]; exact .inl rfl
  case store v m hm h =>
    rw [storeByte_eq h]
    exact .inr (.inl ⟨by rcases hm with ⟨hm, -⟩ | ⟨hm, -⟩ | ⟨hm, -⟩ <;> simp [hm], m, v, h, rfl⟩)
  case arithmetic change src hm h =>
    cases hd : s.p.d with
    | true => rw [addWithCarry_decimal _ _ _ hd]; exact .inl rfl
    | false => rw [addWithCarry_eq h _ _ hd]; exact .inl rfl
  case compare r src hm h => rw [compareWith_eq h]; exact .inl rfl
  case incDec f m hm h =>
    rw [modifyByte_eq h]
    exact .inr (.inl ⟨by rcases hm with ⟨hm, -⟩ | ⟨hm, -⟩ <;> simp [hm], m, _, h, rfl⟩)
  case shift f t hm h =>
    cases t with
    | accumulator => rw [shiftTarget_accumulator h]; exact .inl rfl
    | memory m =>
      rw [shiftTarget_memory h]
      exact .inr (.inl ⟨by rcases hm with ⟨hm, -⟩ | ⟨hm, -⟩ | ⟨hm, -⟩ | ⟨hm, -⟩ <;> simp [hm], m, _, h, rfl⟩)
  case logic f src hm h => rw [combineA_eq h]; exact .inl rfl
  case bit m hm h => rw [testBits_eq h]; exact .inl rfl
  case branch cond t hm h => rw [branchIf_eq h]; cases cond <;> exact .inl rfl
  case jump w hm hi => rw [jumpTo_eq (i := .jmpAbs w) rfl]; exact .inl rfl
  case jumpThrough w hm hi =>
    by_cases hw : lo w = 0xFF#8
    · rw [jumpThrough_wrap _ hw]; exact .inl rfl
    · rw [jumpThrough_eq (i := .jmpInd w) rfl _ hw]; exact .inl rfl
  case rts => rw [returnFromCall_eq (i := .rts) rfl]; exact .inl rfl
  case rti => rw [trapReturn_eq (i := .rti) rfl]; exact .inl rfl
  case call w hm hi =>
    rw [callTo_eq (i := .jsrAbs w) rfl]
    exact .inr (.inr ⟨by simp [hm], s.push16 (s.pc + 2), by dsimp only,
      fun hwf b hb => State.byteAt_push16_of_not_stackPage hwf hb _⟩)
  case brk hm hi =>
    rw [trapEntry_eq (i := .brk) rfl]
    exact .inr (.inr ⟨by simp [hm], (s.push s.p.pack).push16 (s.pc + 2), by dsimp only,
      fun hwf b hb => State.byteAt_push_push16_of_not_stackPage hwf hb _ _⟩)
  case push v hm hs =>
    rw [State.opcodeFetched_push hs]
    exact .inr (.inr ⟨by rcases hm with ⟨hm, -⟩ | ⟨hm, -⟩ <;> simp [hm], s.push v, by rw [State.push_mem],
      fun hwf b hb => State.byteAt_push_of_not_stackPage hwf hb v⟩)
  all_goals exact .inl rfl

/-- Of the instructions that push, JSR alone has a memory operand, which is its target. -/
theorem mnemonic_eq_jsr {i : Instr} {m : MemOperand} (hi : i.mnemonic ∈ [.pha, .php, .jsr, .brk])
    (hop : i.operand = .memory m) : i.mnemonic = .jsr := by
  have rows : opcodeTriples.all
      (fun r => decide (r.1 ∈ [.pha, .php, .jsr, .brk] → r.1 = .jsr ∨ r.2.2 = .implied)) = true := by decide
  obtain hjsr | hmode := of_decide_eq_true (List.all_eq_true.mp rows _ (triple_mem i)) hi
  · exact hjsr
  · have : i.mode = m.mode := congrArg Operand.mode hop
    cases m <;> cases hmode.symm.trans this

/-! ### The obligations -/

/-- Settles O52, from the named writers of the flags. -/
theorem flagsHaveNamedWriters : Obligations.FlagsHaveNamedWriters := by
  unfold Obligations.FlagsHaveNamedWriters
  intro i s t hexec
  have w := (form_of_exec hexec).namedWriters
  exact ⟨w.carry, w.zeroNegative, w.interrupt, w.decimal, w.brk, w.overflow⟩

/-- Settles O53, from the named writers of the registers. -/
theorem registersHaveNamedWriters : Obligations.RegistersHaveNamedWriters := by
  unfold Obligations.RegistersHaveNamedWriters
  intro i s t hexec
  have w := (form_of_exec hexec).namedWriters
  exact ⟨w.regA, w.regX, w.regY, w.regSP⟩

/-- Settles O55: of the instructions that complete, only those that transfer control leave PC elsewhere. -/
theorem pcAdvancesByTheWidth : Obligations.PcAdvancesByTheWidth := by
  unfold Obligations.PcAdvancesByTheWidth
  refine ⟨length_encode, fun i s t hs hexec ht hi => ?_⟩
  have hpc : t.pc = s.pc + BitVec.ofNat 16 i.size := by
    by_contra hne
    exact hi ((form_of_exec hexec).namedWriters.regPC hs ht hne)
  rw [hpc, BitVec.toNat_add, BitVec.toNat_ofNat, Nat.add_mod_mod]

/-- Settles O54, from what the forms of execution do to the storage; those that push have no memory operand but JSR's. -/
theorem storageHasNamedWriters : Obligations.StorageHasNamedWriters := by
  unfold Obligations.StorageHasNamedWriters
  intro i s t hwf hexec
  obtain hmem | ⟨hi, m, v, hop, hmem⟩ | ⟨hi, -⟩ := (form_of_exec hexec).mem_cases
  · exact ⟨fun h => absurd hmem h, fun _ b _ _ _ => State.byteAt_of_mem hmem b⟩
  · have hmode : i.mode ≠ .accumulator := by
      rw [Instr.mode, hop]
      cases m <;> exact nofun
    refine ⟨fun _ => ?_, fun m' b hop' _ hb => ?_⟩
    · simp only [List.mem_cons, List.not_mem_nil, or_false] at hi ⊢
      tauto
    · cases hop.symm.trans hop'
      rw [State.byteAt, hmem, State.byteAt_write hwf, if_neg hb]
  · refine ⟨fun _ => .inl ?_, fun m b hop hne _ => absurd (mnemonic_eq_jsr hi hop) hne⟩
    simp only [List.mem_cons, List.not_mem_nil, or_false] at hi ⊢
    tauto

/-- Settles O49: a push writes at the stack address of SP, which lies in the stack page. -/
theorem pushesStayInTheStackPage : Obligations.PushesStayInTheStackPage := by
  unfold Obligations.PushesStayInTheStackPage
  refine ⟨fun sp => ⟨stackAddr_toNat sp, region_stackAddr sp⟩, fun i s t hwf hi hexec b hb => ?_⟩
  obtain hmem | ⟨hi', -⟩ | ⟨-, u, hmem, hpush⟩ := (form_of_exec hexec).mem_cases
  · exact State.byteAt_of_mem hmem b
  · rcases hi with hi | hi | hi | hi <;> simp [hi] at hi'
  · exact (State.byteAt_of_mem hmem b).trans (hpush hwf b hb)

end Sys2Proof.Machine

/-! Coherence of fetch (R66), and the loop on BRK that zero storage gives (R301). -/

namespace Sys2Proof.Machine

/-- Settles O56: the store completes with its byte at PC, which the next step decodes. -/
theorem storeIsSeenByTheNextFetch : Obligations.StoreIsSeenByTheNextFetch := by
  unfold Obligations.StoreIsSeenByTheNextFetch
  intro i s m v hwf hr hv hop hea
  obtain ⟨-, -, -, store⟩ := storesWriteOneByte
  obtain ⟨m', t, hop', ht, heq, hmem⟩ := store i s v hwf hv
  cases hop.symm.trans hop'
  have hrun : t.run = .running := (congrArg State.run heq).trans hr
  have hpc : t.pc = s.pc + BitVec.ofNat 16 i.size := congrArg State.pc heq
  have hbyte : t.byteAt t.pc = v := by rw [hmem, if_pos (hpc.trans hea.symm)]
  refine ⟨t, ht, hrun, hpc, hbyte, fun hu => ?unassigned, fun ha => ?assigned⟩
  case unassigned => rw [step_unassigned hrun (hbyte ▸ hu), hbyte, State.fetchReads_one]
  case assigned =>
    obtain ⟨hu, -⟩ | ⟨-, j, rest, hdec, hstep⟩ := step_running_cases hrun
    · exact absurd (hbyte ▸ hu) ha
    · exact ⟨j, (opcode_of_decode hdec).trans hbyte, (encode_of_decode hdec).1, State.bytesFrom_of_decode hdec, hstep⟩

/-! ### The loop on BRK -/

theorem region_zero : region 0x0000#16 ≠ .stackPage := by decide

/-- Byte 0x00 at PC is BRK, whatever follows it. -/
theorem step_of_zero_byte {s : State} (hr : s.run = .running) (hz : s.byteAt s.pc = 0x00#8) : step s = exec .brk s := by
  refine step_of_decode (rest := s.bytesFrom (s.pc + 1) 2) hr ?_
  rw [State.bytesFrom, hz]
  exact decode_encode (i := .brk) rfl _

/-- The step in the loop is BRK, whose vector and whose pushes keep it there. -/
theorem State.zeroLoop.step {s : State} (h : s.zeroLoop) (hwf : s.mem.wf = true) :
    ∃ t, step s = .next t ∧ exec .brk s = .next t ∧ t.zeroLoop ∧ t.mem.wf = true ∧ t.sp = s.sp - 3 := by
  obtain ⟨hr, hpc, hz⟩ := h
  obtain ⟨-, brk⟩ := brkEntersThroughTheVector
  obtain ⟨t, ht, heq, -⟩ := brk s hwf
  have hstep : Machine.step s = .next t := (step_of_zero_byte hr (hz _ (hpc ▸ region_zero))).trans ht
  obtain ⟨-, stays⟩ := pushesStayInTheStackPage
  obtain ⟨-, hkeep, -⟩ := step_keeps hstep
  refine ⟨t, hstep, ht, ⟨(congrArg State.run heq).trans hr, ?_, fun b hb => ?_⟩, hkeep hwf, congrArg State.sp heq⟩
  · have vector : t.pc = join (s.byteAt 0xFFFF#16) (s.byteAt 0xFFFE#16) := congrArg State.pc heq
    rw [vector, hz _ (by decide), hz _ (by decide)]
    rfl
  · rw [stays .brk s t hwf (.inr (.inr (.inr rfl))) ht b hb, hz b hb]

theorem State.zeroLoop.safeFor {s : State} (h : s.zeroLoop) (hwf : s.mem.wf = true) (n : Nat) : s.safeFor n := by
  induction n generalizing s with
  | zero => exact h.1
  | succ n ih =>
    obtain ⟨t, hstep, -, hloop, hwf', -⟩ := h.step hwf
    exact ⟨h.1, t, hstep, ih hloop hwf'⟩

/-- Settles O19: the loop is kept by its step, and an empty image puts zero at the vector and everywhere else. -/
theorem zeroStorageLoopsOnBrk : Obligations.ZeroStorageLoopsOnBrk := by
  unfold Obligations.ZeroStorageLoopsOnBrk
  refine ⟨fun s hwf h => h.step hwf, fun n s hwf h => h.safeFor hwf n, fun draw s => ?_⟩
  have zero (a : Word) : (s.hostLoad []).byteAt a = 0x00#8 := (loadedImageReadsBack [] s a).1
  rw [resetLoadsPcFromTheVector draw (s.hostLoad [])]
  refine ⟨rfl, ?_, fun a _ => zero a⟩
  dsimp only
  rw [zero, zero]
  rfl

end Sys2Proof.Machine
